-- ==== Sys2Proof/Word.lean ====
section
/-! DEFINITION. The word types of SLCORE: a host register is 32 bits wide (spec/20_memory.md rule R61), a status
code and a command field are 8 bits wide (spec/30_encoding.md rule R80). -/

namespace Sys2Proof

/-- One host register, one command word (R61, R80). -/
abbrev Word := BitVec 32

/-- One field of a command word, one status code (R80, R271). -/
abbrev Byte := BitVec 8

/-- The sentinel ordinal `0xFFFFFFFF` that SLOTIDX and WORK write for "not in pool" (R112, D41). -/
def noOrdinal : Word := 0xFFFFFFFF#32

end Sys2Proof
end

