-- ==== Sys2Proof/Syntax.lean ====
section
/-! DEFINITION. The 14 operations of SLCORE with their operands (spec/30_encoding.md rules R81, R82 and R86), and
the two value records an operation's operands carry: the sidelink control message and the addressing kind.

Every operand has exactly the width its command field has, so every term of `Instr` stands for one legal command
word; what can be ill formed is a command WORD, and `Sys2Proof/WellFormed.lean` says when it is. -/

namespace Sys2Proof

/-- The addressing kind of a grant, in the order of its numbers 0 to 3 (R85). -/
inductive Kind where
  | bcastCtrl
  | ordinary
  | contentionRes
  | sidelink
deriving DecidableEq, Repr, Inhabited

/-- The number of an addressing kind (R85). -/
def Kind.number : Kind → BitVec 2
  | .bcastCtrl => 0
  | .ordinary => 1
  | .contentionRes => 2
  | .sidelink => 3

/-- A sidelink control message: the six fields of `spec/10_state.md` rule R30, each of its width. -/
structure SciMsg where
  prio : BitVec 3
  resv : BitVec 4
  riv : BitVec 8
  gap : BitVec 4
  mcs : BitVec 5
  rti : Bool
deriving DecidableEq, Repr, Inhabited

/-- The operations, one constructor per row of `spec/opcode_table.json`, in the order of rule R86.
Operands that do not fit the command word are read from the operand registers by the meaning. -/
inductive Instr where
  | reset
  | configure
  | slotidx
  | subchoff (idx : Byte)
  | rivenc (len start : Byte)
  | rivdec (riv : Byte)
  | scienc
  | scidec
  | scan
  | combine (ctx : Byte)
  | newgrant (pid tb : Byte) (kind : Kind) (ndiPresent ndi : Bool)
  | tbdecoded (pid tb : Byte) (ack : Bool)
  | buildgrant (rti : Bool)
  | work (txReq txRti : Bool)
deriving DecidableEq, Repr, Inhabited

/-- The mnemonic of an operation, as `spec/opcode_table.json` spells it. -/
def Instr.mnemonic : Instr → String
  | .reset => "RESET"
  | .configure => "CONFIGURE"
  | .slotidx => "SLOTIDX"
  | .subchoff _ => "SUBCHOFF"
  | .rivenc _ _ => "RIVENC"
  | .rivdec _ => "RIVDEC"
  | .scienc => "SCIENC"
  | .scidec => "SCIDEC"
  | .scan => "SCAN"
  | .combine _ => "COMBINE"
  | .newgrant _ _ _ _ _ => "NEWGRANT"
  | .tbdecoded _ _ _ => "TBDECODED"
  | .buildgrant _ => "BUILDGRANT"
  | .work _ _ => "WORK"

end Sys2Proof
end

