-- ==== Sys2Proof/WellFormed.lean ====
section
/-! DEFINITION. When a command word is well formed (spec/30_encoding.md rules R86 and R87): its opcode is one of the
14 of the table, and every bit the row's format says must be zero is zero. The rows are those of rule R86, match and
mask as they stand there. A word that is not well formed is illegal and executes as "do nothing, ILLEGAL_CMD". -/

namespace Sys2Proof

/-- One row of the opcode map of rule R86: `w` selects the row if and only if `w and mask = match`. -/
structure OpcodeRow where
  mnemonic : String
  pattern : Word
  mask : Word
deriving DecidableEq, Repr

/-- The opcode map (R86), in its order. -/
def opcodeTable : List OpcodeRow :=
  [⟨"RESET", 0x01000000#32, 0xFFFFFFFF#32⟩,
   ⟨"CONFIGURE", 0x02000000#32, 0xFFFFFFFF#32⟩,
   ⟨"SLOTIDX", 0x10000000#32, 0xFFFFFFFF#32⟩,
   ⟨"SUBCHOFF", 0x11000000#32, 0xFFFFFF00#32⟩,
   ⟨"RIVENC", 0x12000000#32, 0xFFFF0000#32⟩,
   ⟨"RIVDEC", 0x13000000#32, 0xFFFFFF00#32⟩,
   ⟨"SCIENC", 0x20000000#32, 0xFFFFFFFF#32⟩,
   ⟨"SCIDEC", 0x21000000#32, 0xFFFFFFFF#32⟩,
   ⟨"SCAN", 0x30000000#32, 0xFFFFFFFF#32⟩,
   ⟨"COMBINE", 0x40000000#32, 0xFFFFFF00#32⟩,
   ⟨"NEWGRANT", 0x50000000#32, 0xFFF00000#32⟩,
   ⟨"TBDECODED", 0x51000000#32, 0xFFFE0000#32⟩,
   ⟨"BUILDGRANT", 0x60000000#32, 0xFFFFFFFE#32⟩,
   ⟨"WORK", 0x70000000#32, 0xFFFFFFFC#32⟩]

/-- The word selects the row (R86). -/
def OpcodeRow.selectedBy (row : OpcodeRow) (w : Word) : Bool := w &&& row.mask == row.pattern

/-- The mnemonics of the rows a word selects; the opcodes differ, so there is at most one (R86). -/
def selectedRows (w : Word) : List String :=
  (opcodeTable.filter fun row => row.selectedBy w).map OpcodeRow.mnemonic

/-- A command word is well formed when it selects a row of the opcode map (R86, R87). -/
def wordLegal (w : Word) : Bool := opcodeTable.any fun row => row.selectedBy w

end Sys2Proof
end

