-- ==== Sys2Proof/Decode.lean ====
section
/-! DEFINITION. The decoder and the encoder of command words (spec/30_encoding.md rules R80 to R89). The decoder
reads the four byte fields of rule R80 and the formats of rule R81 and R82; it does not consult the match and mask
table of `WellFormed.lean`, so that the two readings of the encoding can be proved to agree. -/

namespace Sys2Proof

/-- Why a command word is illegal (R87): its opcode is in no row, or a must-be-zero bit is one. -/
inductive IllegalWord where
  | unknownOpcode
  | mustBeZeroBitSet
deriving DecidableEq, Repr

/-- Field `op`, bits [31:24] (R80). -/
def fieldOp (w : Word) : Byte := w.extractLsb' 24 8
/-- Field `f2`, bits [23:16] (R80). -/
def fieldF2 (w : Word) : Byte := w.extractLsb' 16 8
/-- Field `f1`, bits [15:8] (R80). -/
def fieldF1 (w : Word) : Byte := w.extractLsb' 8 8
/-- Field `f0`, bits [7:0] (R80). -/
def fieldF0 (w : Word) : Byte := w.extractLsb' 0 8

/-- The kind a 2-bit number stands for (R85). -/
def kindOfNumber (k : BitVec 2) : Kind :=
  if k = 0 then .bcastCtrl else if k = 1 then .ordinary else if k = 2 then .contentionRes else .sidelink

/-- Accept `i` when the must-be-zero bits are zero, else refuse the word by name (R81, R87). -/
def whenZero (zero : Bool) (i : Instr) : Except IllegalWord Instr :=
  if zero then .ok i else .error .mustBeZeroBitSet

/-- Decoding of a command word, total on all words (R80 to R82, R86, R87). -/
def decode (w : Word) : Except IllegalWord Instr :=
  let f2 := fieldF2 w
  let f1 := fieldF1 w
  let f0 := fieldF0 w
  let formatZ := f2 == 0 && f1 == 0 && f0 == 0
  let formatI := f2 == 0 && f1 == 0
  match (fieldOp w).toNat with
  | 0x01 => whenZero formatZ .reset
  | 0x02 => whenZero formatZ .configure
  | 0x10 => whenZero formatZ .slotidx
  | 0x11 => whenZero formatI (.subchoff f0)
  | 0x12 => whenZero (f2 == 0) (.rivenc f1 f0)
  | 0x13 => whenZero formatI (.rivdec f0)
  | 0x20 => whenZero formatZ .scienc
  | 0x21 => whenZero formatZ .scidec
  | 0x30 => whenZero formatZ .scan
  | 0x40 => whenZero formatI (.combine f0)
  | 0x50 => whenZero (f2.extractLsb' 4 4 == 0)
      (.newgrant f0 f1 (kindOfNumber (f2.extractLsb' 0 2)) (f2.getLsbD 2) (f2.getLsbD 3))
  | 0x51 => whenZero (f2.extractLsb' 1 7 == 0) (.tbdecoded f0 f1 (f2.getLsbD 0))
  | 0x60 => whenZero (formatI && f0.extractLsb' 1 7 == 0) (.buildgrant (f0.getLsbD 0))
  | 0x70 => whenZero (formatI && f0.extractLsb' 2 6 == 0) (.work (f0.getLsbD 0) (f0.getLsbD 1))
  | _ => .error .unknownOpcode

/-- The four byte fields as one command word (R80). -/
def commandWord (op f2 f1 f0 : Byte) : Word := op ++ f2 ++ f1 ++ f0

/-- Encoding of an operation as its command word, from the formats and fields of rules R81, R82 and R86. -/
def encode : Instr → Word
  | .reset => commandWord 0x01 0 0 0
  | .configure => commandWord 0x02 0 0 0
  | .slotidx => commandWord 0x10 0 0 0
  | .subchoff idx => commandWord 0x11 0 0 idx
  | .rivenc len start => commandWord 0x12 0 len start
  | .rivdec riv => commandWord 0x13 0 0 riv
  | .scienc => commandWord 0x20 0 0 0
  | .scidec => commandWord 0x21 0 0 0
  | .scan => commandWord 0x30 0 0 0
  | .combine ctx => commandWord 0x40 0 0 ctx
  | .newgrant pid tb kind ndiPresent ndi =>
      commandWord 0x50 (0#4 ++ BitVec.ofBool ndi ++ BitVec.ofBool ndiPresent ++ kind.number) tb pid
  | .tbdecoded pid tb ack => commandWord 0x51 (0#7 ++ BitVec.ofBool ack) tb pid
  | .buildgrant rti => commandWord 0x60 0 0 (0#7 ++ BitVec.ofBool rti)
  | .work txReq txRti => commandWord 0x70 0 0 (0#6 ++ BitVec.ofBool txRti ++ BitVec.ofBool txReq)

/-- The decoder as the opcode table numbers an instruction's bits: `nbits` low bits of `w`, every bit above them
zero. A command is one 32-bit word (R80, R89), so no longer instruction exists. -/
def decodeTableWord (nbits w : Nat) : Option Instr :=
  if nbits ≤ 32 then (decode (BitVec.ofNat 32 (w % 2 ^ nbits))).toOption else none

end Sys2Proof
end

