-- ==== Sys2Proof/Config.lean ====
section
/-! DEFINITION. The configuration record of the model: the parameters of spec/00_scope.md rule R9, each of a type
whose values are exactly its legal range (so that rule R10 holds of every record), and the external primitives of
rule R13, whose answers the model does not choose. `Config.hw` is the record of the modelled block: an opaque
constant, so that whatever is proved of the machine holds for every legal value of every parameter and for every
answer of every primitive. -/

namespace Sys2Proof

/-- The parameter `HC_TIE`: which buffer's result the combiner reports when both attempts succeed (R9, R173). -/
inductive Tie where
  | fresh
  | combined
deriving DecidableEq, Repr, Inhabited

/-- A modulation order, the codomain {2, 4, 6} of `QM` (R9). -/
inductive ModOrder where
  | two
  | four
  | six
deriving DecidableEq, Repr, Inhabited

/-- One opaque soft-bit vector, an answer of `DataRx` (R13). The spec gives it no number format (N6): a finite
sequence of integers, so that any two vectors can be told apart. DESIGN CHOICE, log entry 4. -/
abbrev SoftVec := List Int

/-- An answer of `CtrlRx` (R13): an opaque channel-estimate handle, the 32 information bits (`b0` in bit 31) and the
16 checksum bits (`p0` in bit 15) (R63). -/
structure CtrlAnswer where
  ce : Word
  info : Word
  parity : BitVec 16
deriving DecidableEq, Repr, Inhabited

/-- Fixed values of rule R8. -/
def nSubchMax : Nat := 20
def bitmapMax : Nat := 100
def widthMax : Nat := 100

/-- The named parameters of rule R9. A count `x` with range `1..m` is held as `x - 1 : Fin m`. -/
structure Params where
  /-- `N_PROC - 1`, `N_PROC` in 1..254. -/
  nProcPred : Fin 254
  /-- `N_TB - 1`, `N_TB` in 1..2. -/
  nTbPred : Fin 2
  /-- `DUP_LIMIT`, any natural number. -/
  dupLimit : Nat
  /-- `HC_TIE`. -/
  hcTie : Tie
  /-- `CTRL_PRB`, 0..`WIDTH_MAX`. -/
  ctrlPrbFin : Fin 101
  /-- `MCS_MAX`, 0..31. -/
  mcsMaxFin : Fin 32
  /-- `TBS`, total on MCS indices 0..31 and all integers, results below 2^32 (R9, R303). -/
  tbs : BitVec 5 → Int → Word
  /-- `QM`, total on MCS indices 0..31. -/
  qm : BitVec 5 → ModOrder
  /-- `NODE_COUNT - 1`, `NODE_COUNT` at least 1. -/
  nodeCountPred : Nat
  /-- A number whose residue modulo `NODE_COUNT` is `NODE_ID`. -/
  nodeIdRaw : Nat
  /-- `TX_PRIO`. -/
  txPrio : BitVec 3
  /-- `TX_RESV`. -/
  txResv : BitVec 4
  /-- `TX_GAP`. -/
  txGap : BitVec 4
  /-- `NPRB_CARRIER - 1`, `NPRB_CARRIER` in 1..255. -/
  nprbCarrierPred : Fin 255
deriving Inhabited

/-- The external primitives that answer (R13). A primitive whose answers are "not assumed equal between two
askings" (R65) takes the number of the question (`State.asks`) as its first argument; `FecDec` is a function of
`(acc, tbs)` alone. `rand n k` is the answer to `Rand(k + 1)`, in `0..k`. -/
structure Platform where
  ctrlRx : Nat → Word → Nat → CtrlAnswer
  dataRx : Nat → Word → SciMsg → Word → Word → SoftVec
  fecDec : List SoftVec → (tbs : Nat) → BitVec tbs × Bool
  alloc : Nat → Nat → Word
  rand : Nat → (k : Nat) → Fin (k + 1)
deriving Inhabited

/-- The configuration record every operation takes as an argument (R9, R13). -/
structure Config extends Params, Platform
deriving Inhabited

/-- `N_PROC` (R9). -/
def Params.nProc (c : Params) : Nat := c.nProcPred.val + 1
/-- `BCAST_PID = N_PROC` (R9, R10). -/
def Params.bcastPid (c : Params) : Nat := c.nProc
/-- `N_TB` (R9). -/
def Params.nTb (c : Params) : Nat := c.nTbPred.val + 1
/-- `CTRL_PRB` (R9). -/
def Params.ctrlPrb (c : Params) : Nat := c.ctrlPrbFin.val
/-- `MCS_MAX` (R9). -/
def Params.mcsMax (c : Params) : Nat := c.mcsMaxFin.val
/-- `NODE_COUNT` (R9). -/
def Params.nodeCount (c : Params) : Nat := c.nodeCountPred + 1
/-- `NODE_ID`, below `NODE_COUNT` (R9, R10). -/
def Params.nodeId (c : Params) : Nat := c.nodeIdRaw % c.nodeCount
/-- `NPRB_CARRIER` (R9). -/
def Params.nprbCarrier (c : Params) : Nat := c.nprbCarrierPred.val + 1

/-- The parameters and the external answers of the modelled block: free values, no body (R9, R13, R323;
log entries 1 and 2). -/
opaque Config.hw : Config

end Sys2Proof
end

