-- ==== Sys2Proof/Machine/State.lean ====
section
/-! DEFINITION. The state of SLCORE as plain data: every piece of state that spec/10_state.md names, then the model's
own four fields (the host's pending accesses, the value of its last read, the count of questions put to the external
primitives, and the external event history of rule R45). Parameters are not state (R20); they are `Config.hw`. -/

namespace Sys2Proof.Machine

/-- A soft buffer (R33): the declared transport-block size, the soft vectors accumulated since the last reset of
the buffer in arrival order, and the mark "successful". -/
structure SoftBuffer where
  tbs : Option Nat
  acc : List SoftVec
  ok : Bool
deriving DecidableEq, Repr, Inhabited

/-- The reset value of every soft buffer (R33, R46). -/
def SoftBuffer.empty : SoftBuffer := { tbs := none, acc := [], ok := false }

/-- A CombiningBufferPair (R34). -/
structure BufferPair where
  fresh : SoftBuffer
  comb : SoftBuffer
deriving DecidableEq, Repr, Inhabited

/-- The reset value of a pair (R34, R46). -/
def BufferPair.empty : BufferPair := { fresh := .empty, comb := .empty }

/-- The grant record (R190). -/
structure Grant where
  kind : Kind
  ndiPresent : Bool
  ndi : Bool
  tbs : Word
  slot : Word
  gap : BitVec 4
  rti : Bool
deriving DecidableEq, Repr, Inhabited

/-- The four states of a sub-process (R36, R37). -/
inductive SubState where
  | empty
  | awaitingDecode
  | decodedOk
  | decodedKo
deriving DecidableEq, Repr, Inhabited

/-- The fields of a sub-process (R36). `payload` is a handle, 0 for none. -/
structure SubProc where
  state : SubState
  first : Bool
  ack : Bool
  nRetx : Word
  dupCnt : Word
  tbs : Word
  last : Option Grant
  payload : Word
  sb : SoftBuffer
deriving DecidableEq, Repr, Inhabited

/-- The reset value of a sub-process (R36, R46). -/
def SubProc.reset : SubProc :=
  { state := .empty, first := true, ack := false, nRetx := 0, dupCnt := 0, tbs := 0, last := none, payload := 0,
    sb := .empty }

/-- The resource-pool configuration without its valid bit (R26). `bitmap` holds the elements
`0 .. bitmapLen - 1` in order. -/
structure PoolCfg where
  bitmapLen : Byte
  bitmap : List Bool
  nSubch : Byte
  width : Byte
  startOff : Byte
  syncPeriod : BitVec 16
  syncOff : BitVec 16
deriving DecidableEq, Repr, Inhabited

/-- Every field 0 (R26, R46). -/
def PoolCfg.zero : PoolCfg :=
  { bitmapLen := 0, bitmap := [], nSubch := 0, width := 0, startOff := 0, syncPeriod := 0, syncOff := 0 }

/-- The states of the scanner, the six of rules R29 and R152. Decision D17(d) of spec/92_eei_decisions.md lists five
names instead (`CS_IDLE, CS_PROBE, CS_CHECK, CS_HIT, CS_DONE`) and calls its list a presentation only; that the rules'
six are taken is a DESIGN CHOICE (log entry 15). -/
inductive ScanState where
  | idle
  | est
  | dec
  | check
  | hit
  | miss
deriving DecidableEq, Repr, Inhabited

/-- The decoded bits of a transport block: a size and that many bits (R63); the block never looks inside. -/
structure Payload where
  size : Nat
  bits : BitVec size
deriving DecidableEq, Repr

/-- The data encode request `(tbs, qm, n_prb, first_prb)` of a transmit event (R236, R258). -/
structure TxRequest where
  tbs : Word
  qm : ModOrder
  nPrb : Int
  firstPrb : Nat
deriving DecidableEq, Repr

/-- One entry of the external event history (R13, R45): an event, or a question with its answer. -/
inductive Event where
  | ctrlRx (slot : Word) (i : Nat) (answer : CtrlAnswer)
  | dataRx (slot : Word) (msg : SciMsg) (sid ce : Word) (soft : SoftVec)
  | fecDec (acc : List SoftVec) (tbs : Nat) (payload : Payload) (ok : Bool)
  | alloc (nbytes : Nat) (handle : Word)
  | dealloc (handle : Word)
  | push (kind : Kind) (handle : Word) (nbytes : Nat)
  | payloadWrite (handle : Word) (payload : Payload)
  | rand (k answer : Nat)
  | txOut (tick info : Word) (crc : BitVec 16) (req : TxRequest)
deriving DecidableEq, Repr

/-- One access of the host to the register space, by register index (R61, R65). -/
inductive HostAccess where
  | write (index : Nat) (value : Word)
  | read (index : Nat)
deriving DecidableEq, Repr

/-- The state of the block, then the model's own fields. -/
@[ext]
structure State where
  /-- `A0..A7` (R21). -/
  a : Vector Word 8
  /-- `R0..R7` (R22). -/
  r : Vector Word 8
  /-- `STATUS` (R24). -/
  status : Word
  /-- `cfg_valid` (R26). -/
  cfgValid : Bool
  /-- `cfg` (R26). -/
  cfg : PoolCfg
  /-- `cs_state` (R29). -/
  csState : ScanState
  /-- `cs_idx` (R29). -/
  csIdx : Byte
  /-- `pair[0..N_CTX-1]`, `N_CTX = 20` (R8, R34). -/
  pairs : Vector BufferPair 20
  /-- `proc[p].sub[tb]` (R35, R36), with room for the largest `N_PROC + 1 = 255` and `N_TB = 2` (R9). -/
  procs : Vector (Vector SubProc 2) 255
  /-- `retx_sum` (R39). -/
  retxSum : Word
  /-- `pkt_cnt` (R39). -/
  pktCnt : Word
  /-- The nine event counters by their index (R40). -/
  counters : Vector Word 9
  /-- `tx_last` (R41). -/
  txLast : Option SciMsg
  /-- `last_tick` (R42). -/
  lastTick : Option Word
  /-- MODEL: the host's accesses not yet performed, oldest first (log entry 3). -/
  inbox : List HostAccess
  /-- MODEL: the value the host's last read returned, none before the first (log entry 3). -/
  readData : Option Word
  /-- MODEL: how many questions `CtrlRx`, `DataRx`, `Alloc` and `Rand` have been asked (log entry 2). -/
  asks : Nat
  /-- MODEL: the external event history, oldest first (R45, log entry 5). -/
  history : List Event
deriving DecidableEq, Repr

/-- No operation faults: "The model therefore has no fault state and no stuck state" (R270). The type has no
constructor, so that no step can answer a fault; this is safe. -/
inductive Fault where
deriving DecidableEq, Repr

/-- Reasons for which a step has no meaning. -/
inductive Refusal where
  /-- Raised by `exec` for an instruction that has no meaning in this model yet; no arm raises it. Safe: the model
  stops where the hardware would go on. -/
  | notModelled (mnemonic : String)
deriving DecidableEq, Repr

/-- The machine right after power-on reset (R46, R251, R301). The model's own fields are empty. -/
def State.reset : State :=
  { a := Vector.replicate 8 0
    r := Vector.replicate 8 0
    status := 0
    cfgValid := false
    cfg := .zero
    csState := .idle
    csIdx := 0
    pairs := Vector.replicate 20 .empty
    procs := Vector.replicate 255 (Vector.replicate 2 .reset)
    retxSum := 0
    pktCnt := 0
    counters := Vector.replicate 9 0
    txLast := none
    lastTick := none
    inbox := []
    readData := none
    asks := 0
    history := [] }

end Sys2Proof.Machine
end

