-- ==== Sys2Proof/Machine/Flags.lean ====
section
/-! DEFINITION. The status codes (spec/60_exceptions.md rule R271), the checksum (spec/30_encoding.md rule R92) and
the single-bit tests that the operations share (spec/10_state.md rule R25). -/

namespace Sys2Proof.Machine

/-- The status codes of rule R271, in its order. -/
inductive Status where
  | ok
  | notInPool
  | noSci
  | notEligible
  | noGrant
  | crcFail
  | dataFail
  | sciInvalid
  | allocFail
  | badPid
  | cfgInvalid
  | badOperand
  | duplicate
  | dupReset
  | illegalCmd
deriving DecidableEq, Repr, Inhabited

/-- The byte of a status code (R271). -/
def Status.byte : Status → Byte
  | .ok => 0x00
  | .notInPool => 0x01
  | .noSci => 0x02
  | .notEligible => 0x03
  | .noGrant => 0x04
  | .crcFail => 0x10
  | .dataFail => 0x11
  | .sciInvalid => 0x12
  | .allocFail => 0x20
  | .badPid => 0x30
  | .cfgInvalid => 0x31
  | .badOperand => 0x32
  | .duplicate => 0x40
  | .dupReset => 0x41
  | .illegalCmd => 0xFF

/-- The word that STATUS holds for a code: the code in [7:0], zero above (R24). -/
def Status.word (st : Status) : Word := 0#24 ++ st.byte

/-- The nine event counters (R40). -/
inductive Counter where
  | sciCrcFail
  | sciAlias
  | dataFail
  | allocFail
  | badPid
  | dup
  | dupReset
  | noGrant
  | discont
deriving DecidableEq, Repr, Inhabited

/-- The index of a counter (R40). -/
def Counter.index : Counter → Fin 9
  | .sciCrcFail => 0
  | .sciAlias => 1
  | .dataFail => 2
  | .allocFail => 3
  | .badPid => 4
  | .dup => 5
  | .dupReset => 6
  | .noGrant => 7
  | .discont => 8

/-- `bits_n(v)`: the `n` low bits of `v`, most significant first (R11). -/
def bitsOf (n v : Nat) : List Bool := (List.range n).map fun i => v.testBit (n - 1 - i)

/-- `val(seq)`, the inverse of `bits_n` (R11). -/
def valOf (bits : List Bool) : Nat := bits.foldl (fun acc b => 2 * acc + b.toNat) 0

/-- One round of the checksum register: feed one bit (R92). -/
def crcStep (reg : BitVec 16) (b : Bool) : BitVec 16 :=
  if (reg.getLsbD 15 != b) then (reg <<< 1) ^^^ 0x1021#16 else reg <<< 1

/-- The checksum of a bit sequence: generator `x^16 + x^12 + x^5 + 1`, register from 0, no reflection, no final
inversion (R92). -/
def crc16 (bits : List Bool) : BitVec 16 := bits.foldl crcStep 0#16

/-- The checksum of the 32 information bits, `b0` in bit 31 (R63, R92). -/
def crcOfInfo (info : Word) : BitVec 16 := crc16 (bitsOf 32 info.toNat)

end Sys2Proof.Machine
end

