-- ==== Sys2Proof/Machine/Ops.lean ====
section
/-! DEFINITION. The named operations over the state that every meaning is built from: registers, counters, buffers,
sub-processes, the questions to the external primitives, the external events, and completing an operation, which is
this block's form of taking an exception (spec/60_exceptions.md rules R270 and R275). There is no return from one
(R276). -/

namespace Sys2Proof.Machine

/-- Completion of an operation with a status code, "trap entry" in this block: it writes STATUS and nothing else,
saves nothing and transfers control nowhere (R24, R270, R275). -/
def State.finish (s : State) (st : Status) : State := { s with status := st.word }

/-- `A[i]` (R12, R21). -/
def State.opA (s : State) (i : Fin 8) : Word := s.a[i]

/-- The host writes operand register `A[i]` (R21). -/
def State.setA (s : State) (i : Fin 8) (v : Word) : State := { s with a := s.a.set i v }

/-- `R[i] <- v` (R12, R22). -/
def State.setR (s : State) (i : Fin 8) (v : Word) : State := { s with r := s.r.set i v }

/-- The gate of rule R280: before a successful CONFIGURE an operation ends with `CFG_INVALID` and does nothing. -/
def State.whenConfigured (s : State) (go : State → State) : State :=
  if s.cfgValid then go s else s.finish .cfgInvalid

/-- The value of an event counter (R40). -/
def State.counter (s : State) (k : Counter) : Word := s.counters[k.index]

/-- Increment an event counter by 1 mod 2^32 (R40). -/
def State.count (s : State) (k : Counter) : State :=
  { s with counters := s.counters.set k.index (s.counters[k.index] + 1) }

/-- Append an entry to the external event history (R45). -/
def State.note (s : State) (e : Event) : State := { s with history := s.history ++ [e] }

/-- `pair[c]` (R34). -/
def State.pair (s : State) (c : Nat) : BufferPair := s.pairs[c]?.getD .empty

/-- Replace `pair[c]` (R34). -/
def State.setPair (s : State) (c : Nat) (p : BufferPair) : State := { s with pairs := s.pairs.setIfInBounds c p }

/-- `proc[p].sub[tb]` (R35). -/
def State.sub (s : State) (p tb : Nat) : SubProc :=
  ((s.procs[p]?.getD (Vector.replicate 2 .reset))[tb]?).getD .reset

/-- Replace `proc[p].sub[tb]` (R35). -/
def State.setSub (s : State) (p tb : Nat) (sp : SubProc) : State :=
  { s with
    procs := s.procs.setIfInBounds p ((s.procs[p]?.getD (Vector.replicate 2 .reset)).setIfInBounds tb sp) }

/-- The process address is in range (R192). -/
def addressInRange (C : Config) (p tb : Nat) : Bool := decide (p ≤ C.nProc) && decide (tb < C.nTb)

/-- `sb_reset(sb, t)` (R33): the buffer after it. -/
def SoftBuffer.resetFor (t : Word) : SoftBuffer := { tbs := some t.toNat, acc := [], ok := false }

/-- The size in bytes of a transport block of `t` bits (R63). -/
def bytesOf (t : Word) : Nat := (t.toNat + 7) / 8

/-- Ask `CtrlRx(slot, i)`: the answer, and the state with the question counted and recorded (R13, R45, R65). -/
def askCtrlRx (C : Config) (s : State) (slot : Word) (i : Nat) : CtrlAnswer × State :=
  let ans := C.ctrlRx s.asks slot i
  (ans, { s with asks := s.asks + 1 }.note (.ctrlRx slot i ans))

/-- Ask `DataRx(slot, msg, sid, ce)` (R13, R45, R65). -/
def askDataRx (C : Config) (s : State) (slot : Word) (m : SciMsg) (sid ce : Word) : SoftVec × State :=
  let soft := C.dataRx s.asks slot m sid ce
  (soft, { s with asks := s.asks + 1 }.note (.dataRx slot m sid ce soft))

/-- Ask `Alloc(nbytes)`: a handle, 0 for "None" (R13, R45, R65). -/
def askAlloc (C : Config) (s : State) (nbytes : Nat) : Word × State :=
  let h := C.alloc s.asks nbytes
  (h, { s with asks := s.asks + 1 }.note (.alloc nbytes h))

/-- Ask `Rand(k + 1)`: a number in `0..k` (R13, R45, R233). -/
def askRand (C : Config) (s : State) (k : Nat) : Nat × State :=
  let x := (C.rand s.asks k).val
  (x, { s with asks := s.asks + 1 }.note (.rand (k + 1) x))

/-- What `FecDec(acc, tbs)` answers, the payload with its size (R13). -/
structure FecAnswer where
  payload : Payload
  ok : Bool

/-- `FecDec(acc, tbs)`, a function of its two arguments alone (R13, R323). -/
def fecAnswer (C : Config) (acc : List SoftVec) (t : Word) : FecAnswer :=
  { payload := { size := t.toNat, bits := (C.fecDec acc t.toNat).1 }, ok := (C.fecDec acc t.toNat).2 }

/-- Record the question `FecDec(acc, tbs)` with its answer (R45). -/
def State.noteFec (s : State) (C : Config) (acc : List SoftVec) (t : Word) : State :=
  s.note (.fecDec acc t.toNat (fecAnswer C acc t).payload (fecAnswer C acc t).ok)

/-- The event `Dealloc(h)` when a buffer is held, nothing when `h = 0` (R13, R194). -/
def State.release (s : State) (h : Word) : State := if h = 0 then s else s.note (.dealloc h)

end Sys2Proof.Machine
end

