-- ==== Sys2Proof/Machine/Operands.lean ====
section
/-! DEFINITION. The register images of spec/30_encoding.md rule R84: how structured values stand in operand and
result registers. A bit not listed there is zero in a word the block writes, and must be zero in a word it reads. -/

namespace Sys2Proof.Machine

/-- The word `MSGW` of a message (R84). -/
def msgWord (m : SciMsg) : Word :=
  0#7 ++ BitVec.ofBool m.rti ++ m.mcs ++ m.gap ++ m.riv ++ m.resv ++ m.prio

/-- The message a word `MSGW` holds (R84, R133). -/
def msgOfWord (w : Word) : SciMsg :=
  { prio := w.extractLsb' 0 3, resv := w.extractLsb' 3 4, riv := w.extractLsb' 7 8, gap := w.extractLsb' 15 4,
    mcs := w.extractLsb' 19 5, rti := w.getLsbD 24 }

/-- The reserved bits [31:25] of a word `MSGW` are zero (R84). -/
def msgReservedZero (w : Word) : Bool := w.extractLsb' 25 7 == 0

/-- The number a modulation order is written as: 2, 4 or 6 (R84). -/
def qmNumber : ModOrder → BitVec 4
  | .two => 2
  | .four => 4
  | .six => 6

/-- The word `DESCW` of a descriptor (R84). -/
def descWord (len start : Nat) (qm : ModOrder) (crcOk rivOk : Bool) : Word :=
  0#10 ++ BitVec.ofBool rivOk ++ BitVec.ofBool crcOk ++ qmNumber qm ++ BitVec.ofNat 8 start ++ BitVec.ofNat 8 len

/-- The `action_out` of a grant (R84, R195). -/
structure Action where
  decodeEnabled : Bool
  defaultAck : Bool
  sbReset : Bool
deriving DecidableEq, Repr

/-- The word `ACTW` (R84). -/
def actWord (act : Action) : Word :=
  0#29 ++ BitVec.ofBool act.sbReset ++ BitVec.ofBool act.defaultAck ++ BitVec.ofBool act.decodeEnabled

/-- Which buffer's result the combiner reports (R84, R172). -/
inductive Gen where
  | none
  | fresh
  | combined
deriving DecidableEq, Repr, Inhabited

/-- The number of a `gen` field (R84). -/
def genNumber : Gen → BitVec 2
  | .none => 0
  | .fresh => 1
  | .combined => 2

/-- The word `OUTW` of a decode outcome (R84). -/
def outWord (success : Bool) (gen : Gen) (prevOk : Bool) : Word :=
  0#28 ++ BitVec.ofBool prevOk ++ genNumber gen ++ BitVec.ofBool success

/-- The gap field of a word `GNTW` (R84). -/
def gntGap (w : Word) : BitVec 4 := w.extractLsb' 0 4
/-- The rti bit of a word `GNTW` (R84). -/
def gntRti (w : Word) : Bool := w.getLsbD 4
/-- The reserved bits [31:5] of a word `GNTW` are zero (R84). -/
def gntReservedZero (w : Word) : Bool := w.extractLsb' 5 27 == 0

/-- The receive-stage summary of WORK (R84, R255). -/
structure RxSummary where
  status : Status
  pid : Nat
  gen : Gen
  prevOk : Bool
  hit : Bool
  idx : Nat
deriving DecidableEq, Repr

/-- The word `RXW` (R84). -/
def rxWord (x : RxSummary) : Word :=
  0#4 ++ BitVec.ofNat 8 x.idx ++ BitVec.ofBool x.hit ++ BitVec.ofBool x.prevOk ++ genNumber x.gen ++
    BitVec.ofNat 8 x.pid ++ x.status.byte

/-- The word `TXW` of the transmit stage (R84). -/
def txWord (status : Status) (emitted : Bool) : Word := 0#23 ++ BitVec.ofBool emitted ++ status.byte

/-- The checksum bits held in the low half of a register, zero above (R63). -/
def crcWord (crc : BitVec 16) : Word := 0#16 ++ crc

/-- The checksum bits of an operand register (R63, R135). -/
def parityOf (w : Word) : BitVec 16 := w.extractLsb' 0 16

/-- Bits [31:16] of a checksum operand are zero (R84, R135). -/
def parityReservedZero (w : Word) : Bool := w.extractLsb' 16 16 == 0

/-- The bitmap element `k` of a CONFIGURE: bit `k mod 32` of `A[2 + k div 32]`, for `k` below 128 (R63, R84). -/
def bitmapOperand (a2 a3 a4 a5 : Word) (k : Nat) : Bool :=
  match k / 32 with
  | 0 => a2.getLsbD (k % 32)
  | 1 => a3.getLsbD (k % 32)
  | 2 => a4.getLsbD (k % 32)
  | 3 => a5.getLsbD (k % 32)
  | _ => false

/-- The configuration the operand words `CFG0`, `CFG1` and the bitmap words spell (R84, R252). -/
def cfgOfOperands (a0 a1 a2 a3 a4 a5 : Word) : PoolCfg :=
  let bl : Byte := a0.extractLsb' 24 8
  { bitmapLen := bl
    bitmap := (List.range bl.toNat).map (bitmapOperand a2 a3 a4 a5)
    nSubch := a0.extractLsb' 0 8
    width := a0.extractLsb' 8 8
    startOff := a0.extractLsb' 16 8
    syncPeriod := a1.extractLsb' 0 16
    syncOff := a1.extractLsb' 16 16 }

end Sys2Proof.Machine
end

