-- ==== Sys2Proof/Machine/ResourcePool.lean ====
section
/-! DEFINITION. The ResourcePool unit: SLOTIDX, SUBCHOFF, RIVENC, RIVDEC (spec/40_resource_pool.md rules R110 to
R121). -/

namespace Sys2Proof.Machine

/-! ### Time -/

/-- Bitmap element `k` of a configuration (R26). -/
def PoolCfg.bit (c : PoolCfg) (k : Nat) : Bool := c.bitmap.getD k false

/-- `is_sync(cfg, u)` (R111). -/
def isSync (c : PoolCfg) (u : Nat) : Bool :=
  c.syncPeriod.toNat != 0 && u % c.syncPeriod.toNat == c.syncOff.toNat

/-- `nonsync_before(cfg, u)`: how many ticks before `u` are no sync slot (R111). -/
def nonsyncBefore (c : PoolCfg) (u : Nat) : Nat := (List.range u).countP fun v => !isSync c v

/-- `eligible(cfg, u)` (R111). -/
def eligible (c : PoolCfg) (u : Nat) : Bool := !isSync c u && c.bit (nonsyncBefore c u % c.bitmapLen.toNat)

/-- `slot_index(cfg, t)` as rule R111 defines it, by counting every tick before `t`. -/
def slotIndexByCount (c : PoolCfg) (t : Nat) : Option Nat :=
  if eligible c t then some ((List.range t).countP (eligible c)) else none

/-- `sync_before(cfg, t)` (R121). -/
def syncBefore (c : PoolCfg) (t : Nat) : Nat :=
  if c.syncPeriod.toNat = 0 then 0
  else t / c.syncPeriod.toNat + (if c.syncOff.toNat < t % c.syncPeriod.toNat then 1 else 0)

/-- `popcount(cfg.bitmap[0 .. k-1])` (R11, R121). -/
def onesBelow (c : PoolCfg) (k : Nat) : Nat := (c.bitmap.take k).countP id

/-- `slot_index(cfg, t)` in the closed form of rule R121, which the operations use; that it equals
`slotIndexByCount` is an obligation. -/
def slotIndex (c : PoolCfg) (t : Nat) : Option Nat :=
  let j := t - syncBefore c t
  let n := c.bitmapLen.toNat
  if isSync c t || !c.bit (j % n) then none else some (j / n * onesBelow c n + onesBelow c (j % n))

/-- SLOTIDX for any configuration record (R112). -/
def opSlotidx (s : State) : State :=
  s.whenConfigured fun s =>
    match slotIndex s.cfg (s.opA 0).toNat with
    | some k => (s.setR 0 (BitVec.ofNat 32 k)).finish .ok
    | none => (s.setR 0 noOrdinal).finish .notInPool

/-- SLOTIDX (R112). -/
def execSlotidx (s : State) : Host.Outcome State Fault Refusal := .next (opSlotidx s)

/-! ### Frequency -/

/-- The first PRB of subchannel `i` (R113). -/
def subchannelFirst (c : PoolCfg) (i : Nat) : Nat := c.startOff.toNat + i * c.width.toNat

/-- The data PRB count of an allocation of `len` subchannels; it may be zero or negative (R113, R132). -/
def dataPrbs (C : Config) (c : PoolCfg) (len : Nat) : Int := (len * c.width.toNat : Nat) - (C.ctrlPrb : Int)

/-- The first data PRB of an allocation that starts at subchannel `start` (R113). -/
def firstDataPrb (C : Config) (c : PoolCfg) (start : Nat) : Nat := subchannelFirst c start + C.ctrlPrb

/-- SUBCHOFF for any configuration record (R114). -/
def opSubchoff (idx : Byte) (s : State) : State :=
  s.whenConfigured fun s =>
    if s.cfg.nSubch.toNat ≤ idx.toNat then s.finish .badOperand
    else
      ((s.setR 0 (BitVec.ofNat 32 (subchannelFirst s.cfg idx.toNat))).setR 1
        (BitVec.ofNat 32 s.cfg.width.toNat)).finish .ok

/-- SUBCHOFF (R114). -/
def execSubchoff (idx : Byte) (s : State) : Host.Outcome State Fault Refusal := .next (opSubchoff idx s)

/-! ### The resource indication value -/

/-- The least `w` from `w` on with `x ≤ 2^w`, in at most `fuel` steps. -/
def ceilLog2From : Nat → Nat → Nat → Nat
  | 0, w, _ => w
  | fuel + 1, w, x => if x ≤ 2 ^ w then w else ceilLog2From fuel (w + 1) x

/-- `ceil_log2(x)`: the least `w` with `2^w >= x` (R11). -/
def ceilLog2 (x : Nat) : Nat := ceilLog2From x 0 x

/-- `riv_bits(n)` (R115). -/
def rivBits (n : Nat) : Nat := ceilLog2 (n * (n + 1) / 2)

/-- `riv_encode(n, L, s)` for `1 <= L <= n` and `s <= n - L` (R116). -/
def rivEncode (n len s : Nat) : Nat :=
  if len - 1 ≤ n / 2 then n * (len - 1) + s else n * (n - len + 1) + (n - 1 - s)

/-- A frequency allocation with its validity (R117). -/
structure Alloc where
  len : Nat
  start : Nat
  ok : Bool
deriving DecidableEq, Repr

/-- The first three lines of `riv_decode` (R117): a length and a start, computed as signed integers. -/
def rivSplit (n r : Nat) : Int × Int :=
  if r / n + 1 + r % n ≤ n then ((r / n + 1 : Nat), (r % n : Nat))
  else ((n : Int) - (r / n : Nat) + 1, (n : Int) - 1 - (r % n : Nat))

/-- `riv_decode(n, r)` (R117). -/
def rivDecode (n r : Nat) : Alloc :=
  let l := (rivSplit n r).1
  let s := (rivSplit n r).2
  { len := l.toNat
    start := s.toNat
    ok := decide (1 ≤ l ∧ l ≤ n ∧ 0 ≤ s ∧ s ≤ n - l) && rivEncode n l.toNat s.toNat == r }

/-- The allocation a message's `riv` field stands for under a configuration (R31, R117). -/
def msgAlloc (c : PoolCfg) (m : SciMsg) : Alloc := rivDecode c.nSubch.toNat m.riv.toNat

/-- RIVENC for any configuration record (R118). -/
def opRivenc (len start : Byte) (s : State) : State :=
  s.whenConfigured fun s =>
    let n := s.cfg.nSubch.toNat
    if len.toNat < 1 ∨ n < len.toNat ∨ n - len.toNat < start.toNat then s.finish .badOperand
    else (s.setR 0 (BitVec.ofNat 32 (rivEncode n len.toNat start.toNat))).finish .ok

/-- RIVENC (R118). -/
def execRivenc (len start : Byte) (s : State) : Host.Outcome State Fault Refusal := .next (opRivenc len start s)

/-- RIVDEC for any configuration record (R119). -/
def opRivdec (riv : Byte) (s : State) : State :=
  s.whenConfigured fun s =>
    let d := rivDecode s.cfg.nSubch.toNat riv.toNat
    if d.ok then ((s.setR 0 (BitVec.ofNat 32 d.len)).setR 1 (BitVec.ofNat 32 d.start)).finish .ok
    else s.finish .badOperand

/-- RIVDEC (R119). -/
def execRivdec (riv : Byte) (s : State) : Host.Outcome State Fault Refusal := .next (opRivdec riv s)

end Sys2Proof.Machine
end

