-- ==== Sys2Proof/Machine/SciCodec.lean ====
section
/-! DEFINITION. The SciCodec unit: SCIENC and SCIDEC (spec/41_sci_codec.md rules R130 to R137; the bit layout is
spec/30_encoding.md rules R90 to R93). -/

namespace Sys2Proof.Machine

/-- `sci_pack(n, m)`: the 32 information bits, `b0` in bit 31 (R63, R90). -/
def sciPack (n : Nat) (m : SciMsg) : Word :=
  let w := rivBits n
  BitVec.ofNat 32 (valOf (bitsOf 3 m.prio.toNat ++ bitsOf 4 m.resv.toNat ++ bitsOf w m.riv.toNat ++
    bitsOf 4 m.gap.toNat ++ bitsOf 5 m.mcs.toNat ++ [m.rti] ++ List.replicate (15 - w) false))

/-- The value of the `len` bits of a sequence from position `from` on. -/
def fieldAt (bits : List Bool) (start len : Nat) : Nat := valOf ((bits.drop start).take len)

/-- `sci_unpack(n, info)`: the fields at the positions of rule R90, the reserved bits ignored (R91). -/
def sciUnpack (n : Nat) (info : Word) : SciMsg :=
  let w := rivBits n
  let b := bitsOf 32 info.toNat
  { prio := BitVec.ofNat 3 (fieldAt b 0 3)
    resv := BitVec.ofNat 4 (fieldAt b 3 4)
    riv := BitVec.ofNat 8 (fieldAt b 7 w)
    gap := BitVec.ofNat 4 (fieldAt b (7 + w) 4)
    mcs := BitVec.ofNat 5 (fieldAt b (11 + w) 5)
    rti := b.getD (16 + w) false }

/-- `sci_encode(n, m)`: information bits and checksum (R131). -/
structure SciCode where
  info : Word
  crc : BitVec 16
deriving DecidableEq, Repr

/-- `sci_encode(n, m)` (R131). -/
def sciEncode (n : Nat) (m : SciMsg) : SciCode :=
  { info := sciPack n m, crc := crcOfInfo (sciPack n m) }

/-- What `sci_decode` returns (R132). -/
structure SciDecoded where
  msg : SciMsg
  rem : BitVec 16
  crcOk : Bool
  rivOk : Bool
  len : Nat
  start : Nat
  tbs : Word
  qm : ModOrder
deriving DecidableEq, Repr

/-- The transport-block size of the occasion a message announces (R31, R172). -/
def occasionTbs (C : Config) (c : PoolCfg) (m : SciMsg) : Word :=
  C.tbs m.mcs (dataPrbs C c (msgAlloc c m).len)

/-- `sci_decode(cfg, info, parity)`, total on all inputs (R132, R134). -/
def sciDecode (C : Config) (c : PoolCfg) (info : Word) (parity : BitVec 16) : SciDecoded :=
  let m := sciUnpack c.nSubch.toNat info
  let d := msgAlloc c m
  { msg := m
    rem := crcOfInfo info
    crcOk := parity == crcOfInfo info
    rivOk := d.ok
    len := if d.ok then d.len else 0
    start := if d.ok then d.start else 0
    tbs := if d.ok then occasionTbs C c m else 0
    qm := C.qm m.mcs }

/-- SCIENC for any configuration record (R133). -/
def opScienc (s : State) : State :=
  s.whenConfigured fun s =>
    let w := s.opA 0
    if msgReservedZero w && (msgAlloc s.cfg (msgOfWord w)).ok then
      let code := sciEncode s.cfg.nSubch.toNat (msgOfWord w)
      ((s.setR 0 code.info).setR 1 (crcWord code.crc)).finish .ok
    else s.finish .badOperand

/-- SCIENC (R133). -/
def execScienc (s : State) : Host.Outcome State Fault Refusal := .next (opScienc s)

/-- The status SCIDEC ends with: the checksum is reported before the resource indication value (R135, R274). -/
def sciStatus (d : SciDecoded) : Status :=
  if !d.crcOk then .crcFail else if !d.rivOk then .sciInvalid else .ok

/-- SCIDEC for any configuration record (R135). -/
def opScidec (C : Config) (s : State) : State :=
  s.whenConfigured fun s =>
    if parityReservedZero (s.opA 1) then
      let d := sciDecode C s.cfg (s.opA 0) (parityOf (s.opA 1))
      ((((s.setR 0 (msgWord d.msg)).setR 1 (crcWord d.rem)).setR 2 d.tbs).setR 3
        (descWord d.len d.start d.qm d.crcOk d.rivOk)).finish (sciStatus d)
    else s.finish .badOperand

/-- SCIDEC (R135). -/
def execScidec (s : State) : Host.Outcome State Fault Refusal := .next (opScidec Config.hw s)

end Sys2Proof.Machine
end

