-- ==== Sys2Proof/Machine/Combiner.lean ====
section
/-! DEFINITION. The HarqCombiner: COMBINE (spec/43_harq_combiner.md rules R170 to R176). -/

namespace Sys2Proof.Machine

/-- A decode attempt against a buffer with new soft bits: the buffer after it; the success mark is sticky
(R33, R174). -/
def SoftBuffer.attempt (C : Config) (sb : SoftBuffer) (soft : SoftVec) (t : Word) : SoftBuffer :=
  { sb with acc := sb.acc ++ [soft], ok := sb.ok || (fecAnswer C (sb.acc ++ [soft]) t).ok }

/-- The combined buffer as the attempt finds it: reset by a first generation, and, to keep invariant (1), when its
declared size is not the occasion's; else as the previous occasion left it (R172 step 3, R174). -/
def combBefore (comb : SoftBuffer) (rti : Bool) (t : Word) : SoftBuffer :=
  if !rti || comb.tbs != some t.toNat then SoftBuffer.resetFor t else comb

/-- Which result is reported (R172 step 7, R173). -/
def genOf (tie : Tie) (okFresh okComb : Bool) : Gen :=
  match okFresh, okComb with
  | true, true => match tie with
    | .fresh => .fresh
    | .combined => .combined
  | true, false => .fresh
  | false, true => .combined
  | false, false => .none

/-- What `combine` returns (R172). -/
structure CombineOut where
  success : Bool
  gen : Gen
  prevOk : Bool
  tbs : Word
  state : State

/-- The answers of one combination: what the fresh and the combined attempt gave (R172 steps 4 and 5). -/
structure Attempts where
  fresh : FecAnswer
  comb : FecAnswer

/-- The two attempts on the soft vector `soft` (R172 steps 4 and 5). -/
def attempts (C : Config) (comb : SoftBuffer) (soft : SoftVec) (t : Word) : Attempts :=
  { fresh := fecAnswer C [soft] t, comb := fecAnswer C (comb.acc ++ [soft]) t }

/-- The pair after one occasion: the fresh buffer with its attempt, the combined buffer with its attempt, reset
again after a second generation (R172 steps 2 to 6). -/
def pairAfter (C : Config) (p : BufferPair) (rti : Bool) (soft : SoftVec) (t : Word) : BufferPair :=
  let comb := combBefore p.comb rti t
  { fresh := (SoftBuffer.resetFor t).attempt C soft t
    comb := if rti then SoftBuffer.resetFor t else comb.attempt C soft t }

/-- Store the reported payload when the decode succeeded and a buffer was named (R172). -/
def State.writePayload (s : State) (x : Attempts) (gen : Gen) (handle : Word) : State :=
  if handle = 0 then s
  else match gen with
    | .none => s
    | .fresh => s.note (.payloadWrite handle x.fresh.payload)
    | .combined => s.note (.payloadWrite handle x.comb.payload)

/-- `combine(c, m, sid, slot, ce, handle)` (R170, R172). -/
def combine (C : Config) (c : Nat) (m : SciMsg) (sid slot ce handle : Word) (s : State) : CombineOut :=
  let t := occasionTbs C s.cfg m
  let soft := (askDataRx C s slot m sid ce).1
  let s1 := (askDataRx C s slot m sid ce).2
  let comb := combBefore (s1.pair c).comb m.rti t
  let x := attempts C comb soft t
  let s2 := (s1.noteFec C [soft] t).noteFec C (comb.acc ++ [soft]) t
  let gen := genOf C.hcTie x.fresh.ok x.comb.ok
  { success := x.fresh.ok || x.comb.ok
    gen := gen
    prevOk := comb.ok
    tbs := t
    state := (s2.setPair c (pairAfter C (s1.pair c) m.rti soft t)).writePayload x gen handle }

/-- The operand checks of rule R171 after the configuration gate, in its order; all end with `BAD_OPERAND`. -/
def combineOperandsOk (ctx : Byte) (s : State) : Bool :=
  decide (ctx.toNat < s.cfg.nSubch.toNat) && msgReservedZero (s.opA 0) && (msgAlloc s.cfg (msgOfWord (s.opA 0))).ok

/-- COMBINE for any configuration record (R171, R172). -/
def opCombine (C : Config) (ctx : Byte) (s : State) : State :=
  s.whenConfigured fun s =>
    if combineOperandsOk ctx s then
      let out := combine C ctx.toNat (msgOfWord (s.opA 0)) (s.opA 1) (s.opA 2) (s.opA 3) (s.opA 4) s
      ((out.state.setR 0 (outWord out.success out.gen out.prevOk)).setR 1 out.tbs).finish
        (if out.success then .ok else .dataFail)
    else s.finish .badOperand

/-- COMBINE (R172). -/
def execCombine (ctx : Byte) (s : State) : Host.Outcome State Fault Refusal := .next (opCombine Config.hw ctx s)

end Sys2Proof.Machine
end

