-- ==== Sys2Proof/Machine/HarqEntity.lean ====
section
/-! DEFINITION. The DlHarqEntity with its processes and sub-processes: NEWGRANT and TBDECODED
(spec/44_harq_entity.md rules R190 to R205). -/

namespace Sys2Proof.Machine

/-- First-occasion time `t0(g)`, mod 2^32 (R191). -/
def Grant.t0 (g : Grant) : Word := if g.rti then g.slot - BitVec.setWidth 32 g.gap else g.slot

/-- Two grants have equal signatures `(kind, tbs, t0, gap)` (R193). -/
def sameSig (g h : Grant) : Bool := g.kind == h.kind && g.tbs == h.tbs && g.t0 == h.t0 && g.gap == h.gap

/-- The time-gap of the previous grant connects the two: equal first-occasion time and equal gap (R198). -/
def connects (g h : Grant) : Bool := g.t0 == h.t0 && g.gap == h.gap

/-- `sub_reset(sp, t)` without its `Dealloc`, which `State.release` makes (R194). -/
def SubProc.cleared (sp : SubProc) (t : Word) : SubProc :=
  { sp with payload := 0, sb := SoftBuffer.resetFor t, tbs := t, nRetx := 0, ack := false, dupCnt := 0, state := .empty }

/-- The grant repeats the signature of a block already decoded successfully (R195 step 1, R199). Without a
last-grant snapshot, which no reachable state with `first = 0` lacks, it is no duplicate (log entry 6). -/
def isDuplicate (sp : SubProc) (g : Grant) : Bool :=
  !sp.first && sp.ack && match sp.last with
    | some l => sameSig g l
    | none => false

/-- The grant starts a new transmission: a level of the NDI flag, or the first grant ever (R197). -/
def isNew (sp : SubProc) (g : Grant) : Bool := (g.ndiPresent && g.ndi) || sp.first

/-- The grant-discontinuity guard (R195 step 2, R198). -/
def isDiscont (sp : SubProc) (g : Grant) : Bool :=
  !isNew sp g && match sp.last with
    | some l => !connects g l
    | none => true

/-- The size changed without a new transmission (R195 step 2, R302). -/
def isResized (sp : SubProc) (g : Grant) : Bool :=
  !isNew sp g && !isDiscont sp g && sp.sb.tbs != some g.tbs.toNat

/-- Any of the three conditions that reset the sub-process (R195 step 2). -/
def grantResets (sp : SubProc) (g : Grant) : Bool := isNew sp g || isDiscont sp g || isResized sp g

/-- The sub-process after steps (2) and (3) of rule R195: reset or counted as a retransmission, the grant
recorded. -/
def recorded (sp : SubProc) (g : Grant) : SubProc :=
  let sp1 := if grantResets sp g then sp.cleared g.tbs else { sp with nRetx := sp.nRetx + 1 }
  { sp1 with first := false, last := some g, tbs := g.tbs }

/-- What `new_grant` returns: its status, `act`, and on `OK` the payload handle (R195, R255). -/
structure GrantOut where
  status : Status
  act : Action
  handle : Word
  state : State

/-- Step (1) of rule R195, the duplicate rule (R199). -/
def duplicateGrant (C : Config) (p tb : Nat) (s : State) : GrantOut :=
  let sp := s.sub p tb
  let n := sp.dupCnt + 1
  let act : Action := { decodeEnabled := false, defaultAck := true, sbReset := false }
  if C.dupLimit < n.toNat then
    { status := .dupReset, act := act, handle := 0
      state := (((s.count .dup).release sp.payload).setSub p tb (sp.cleared sp.tbs)).count .dupReset }
  else
    { status := .duplicate, act := act, handle := 0
      state := (s.count .dup).setSub p tb { sp with dupCnt := n } }

/-- Step (5) of rule R195: the grant is accepted for decode into the buffer `h`. -/
def acceptGrant (p tb : Nat) (sp : SubProc) (h : Word) (sbReset : Bool) (s : State) : GrantOut :=
  { status := .ok, act := { decodeEnabled := true, defaultAck := false, sbReset := sbReset }, handle := h
    state := s.setSub p tb { sp with payload := h, state := .awaitingDecode } }

/-- Steps (4) and (5) of rule R195: a buffer is kept, or asked for; without one the grant stays recorded. -/
def allocateGrant (C : Config) (p tb : Nat) (sp : SubProc) (sbReset : Bool) (s : State) : GrantOut :=
  if sp.payload = 0 then
    let q := askAlloc C s (bytesOf sp.tbs)
    if q.1 = 0 then
      { status := .allocFail, act := { decodeEnabled := false, defaultAck := false, sbReset := sbReset }, handle := 0
        state := (q.2.count .allocFail).setSub p tb sp }
    else acceptGrant p tb sp q.1 sbReset q.2
  else acceptGrant p tb sp sp.payload sbReset s

/-- `new_grant` from the line `sp <- proc[pid].sub[tb]` on (R195, R255). -/
def newGrant (C : Config) (p tb : Nat) (g : Grant) (s : State) : GrantOut :=
  let sp := s.sub p tb
  if isDuplicate sp g then duplicateGrant C p tb s
  else
    let s1 := if grantResets sp g then s.release sp.payload else s
    let s2 := if isDiscont sp g then s1.count .discont else s1
    allocateGrant C p tb (recorded sp g) (grantResets sp g) s2

/-- The grant the operands of NEWGRANT form (R190). -/
def grantOfOperands (kind : Kind) (ndiPresent ndi : Bool) (a0 a1 a2 : Word) : Grant :=
  { kind := kind, ndiPresent := ndiPresent, ndi := ndi, tbs := a0, slot := a1, gap := gntGap a2, rti := gntRti a2 }

/-- Write the results of a grant: `R0` always, `R1` on `OK` only (R195). -/
def GrantOut.results (out : GrantOut) : State :=
  let s := out.state.setR 0 (actWord out.act)
  (if out.status = .ok then s.setR 1 out.handle else s).finish out.status

/-- NEWGRANT for any configuration record (R192, R195). -/
def opNewgrant (C : Config) (pid tb : Byte) (kind : Kind) (ndiPresent ndi : Bool) (s : State) : State :=
  s.whenConfigured fun s =>
    if addressInRange C pid.toNat tb.toNat then
      if gntReservedZero (s.opA 2) then
        (newGrant C pid.toNat tb.toNat (grantOfOperands kind ndiPresent ndi (s.opA 0) (s.opA 1) (s.opA 2)) s).results
      else s.finish .badOperand
    else (s.count .badPid).finish .badPid

/-- NEWGRANT (R195). -/
def execNewgrant (pid tb : Byte) (kind : Kind) (ndiPresent ndi : Bool) (s : State) :
    Host.Outcome State Fault Refusal :=
  .next (opNewgrant Config.hw pid tb kind ndiPresent ndi s)

/-! ### TBDECODED -/

/-- What `tb_decoded` returns. -/
structure DecodedOut where
  status : Status
  state : State

/-- The kind of the last grant, the first argument of `Push` (R201). A sub-process that awaits a decode has a
last grant (R200); without one, which no reachable state shows, the kind is the first of the four (log entry 6). -/
def lastKind (sp : SubProc) : Kind := (sp.last.map Grant.kind).getD .bcastCtrl

/-- Delivery of a decoded block: the push, the metrics, the handle given up (R200, R201). -/
def deliver (p tb : Nat) (s : State) : State :=
  let sp := s.sub p tb
  let s1 := s.note (.push (lastKind sp) sp.payload (bytesOf sp.tbs))
  let s2 := { s1 with retxSum := s1.retxSum + sp.nRetx, pktCnt := s1.pktCnt + 1 }
  s2.setSub p tb { sp with payload := 0, ack := true, dupCnt := 0, state := .decodedOk }

/-- A failed decode: the buffer goes back to the allocator, nothing is delivered (R200, R201). -/
def giveBack (p tb : Nat) (s : State) : State :=
  let sp := s.sub p tb
  ((s.note (.dealloc sp.payload)).count .dataFail).setSub p tb
    { sp with payload := 0, ack := false, state := .decodedKo }

/-- `tb_decoded` from the line `sp <- proc[pid].sub[tb]` on (R200, R255). -/
def tbDecoded (p tb : Nat) (ack : Bool) (s : State) : DecodedOut :=
  if (s.sub p tb).state = .awaitingDecode then
    if ack then { status := .ok, state := deliver p tb s } else { status := .dataFail, state := giveBack p tb s }
  else { status := .badOperand, state := s }

/-- TBDECODED for any configuration record (R192, R200). -/
def opTbdecoded (C : Config) (pid tb : Byte) (ack : Bool) (s : State) : State :=
  s.whenConfigured fun s =>
    if addressInRange C pid.toNat tb.toNat then
      let out := tbDecoded pid.toNat tb.toNat ack s
      out.state.finish out.status
    else (s.count .badPid).finish .badPid

/-- TBDECODED (R200). -/
def execTbdecoded (pid tb : Byte) (ack : Bool) (s : State) : Host.Outcome State Fault Refusal :=
  .next (opTbdecoded Config.hw pid tb ack s)

end Sys2Proof.Machine
end

