-- ==== Sys2Proof/Machine/Scanner.lean ====
section
/-! DEFINITION. The ControlChannelScanner: SCAN as the loop of spec/42_scanner.md rule R151, and the state machine of
rule R152 as a transition function, which an obligation proves equal to the loop. -/

namespace Sys2Proof.Machine

/-- What a scan that found a message returns (R151). -/
structure Hit where
  msg : SciMsg
  sid : Word
  idx : Nat
  ce : Word
  tbs : Word
  len : Nat
  start : Nat
  qm : ModOrder
deriving DecidableEq, Repr

/-- The decoded candidate at subchannel `i` is consistent: a valid `riv` whose start is `i` (R150, R151). -/
def consistentAt (d : SciDecoded) (i : Nat) : Bool := d.rivOk && d.start == i

/-- The result of a hit on a decoded candidate (R134, R151). -/
def hitOf (d : SciDecoded) (ce : Word) (i : Nat) : Hit :=
  { msg := d.msg, sid := crcWord d.rem, idx := i, ce := ce, tbs := d.tbs, len := d.len, start := d.start, qm := d.qm }

/-- What a scan leaves: its result and the state. -/
structure ScanOut where
  hit : Option Hit
  state : State

/-- The loop of rule R151 over the `n` candidates from `i` on. -/
def scanFrom (C : Config) (slot : Word) : Nat → Nat → State → ScanOut
  | 0, _, s => { hit := none, state := s }
  | n + 1, i, s =>
    let ans := (askCtrlRx C s slot i).1
    let s1 := (askCtrlRx C s slot i).2
    let d := sciDecode C s.cfg ans.info ans.parity
    if !d.crcOk then scanFrom C slot n (i + 1) (s1.count .sciCrcFail)
    else if !consistentAt d i then scanFrom C slot n (i + 1) (s1.count .sciAlias)
    else { hit := some (hitOf d ans.ce i), state := s1 }

/-- The scanner's two registers at their idle values (R29, R152). -/
def State.scannerIdle (s : State) : State := { s with csState := .idle, csIdx := 0 }

/-- `scan(slot)` (R151): the candidates `0 .. n_subch - 1` in order, first valid wins; the scanner ends idle. -/
def scan (C : Config) (slot : Word) (s : State) : ScanOut :=
  let out := scanFrom C slot s.cfg.nSubch.toNat 0 s
  { out with state := out.state.scannerIdle }

/-! ### The state machine of rule R152 -/

/-- The scanner inside one operation: the state with its registers, the last answer of `CtrlRx`, and the result
once it is produced. -/
structure ScanRun where
  state : State
  answer : CtrlAnswer
  result : Option (Option Hit)

/-- The transition out of `CS_IDLE` when a scan starts (R152). -/
def scanStart (s : State) : ScanRun :=
  { state := { s with csState := .est, csIdx := 0 }, answer := default, result := none }

/-- Reject the candidate: count it, go to the next one, or to `CS_MISS` past the last (R152). -/
def scanReject (x : ScanRun) (k : Counter) : ScanRun :=
  let s := x.state.count k
  let i := s.csIdx + 1
  { x with
    state := { s with csIdx := i, csState := if i.toNat < s.cfg.nSubch.toNat then .est else .miss } }

/-- One transition of rule R152; `CS_IDLE` stays. -/
def scanTransition (C : Config) (slot : Word) (x : ScanRun) : ScanRun :=
  let d := sciDecode C x.state.cfg x.answer.info x.answer.parity
  match x.state.csState with
  | .idle => x
  | .est =>
    let q := askCtrlRx C x.state slot x.state.csIdx.toNat
    { x with answer := q.1, state := { q.2 with csState := .dec } }
  | .dec =>
    if !d.crcOk then scanReject x .sciCrcFail else { x with state := { x.state with csState := .check } }
  | .check =>
    if consistentAt d x.state.csIdx.toNat then { x with state := { x.state with csState := .hit } }
    else scanReject x .sciAlias
  | .hit => { x with state := x.state.scannerIdle, result := some (some (hitOf d x.answer.ce x.state.csIdx.toNat)) }
  | .miss => { x with state := x.state.scannerIdle, result := some none }

/-- `k` transitions (R152). -/
def scanTransitions (C : Config) (slot : Word) : Nat → ScanRun → ScanRun
  | 0, x => x
  | k + 1, x => scanTransitions C slot k (scanTransition C slot x)

/-! ### SCAN -/

/-- SCAN for any configuration record (R151). -/
def opScan (C : Config) (s : State) : State :=
  s.whenConfigured fun s =>
    let out := scan C (s.opA 0) s
    match out.hit with
    | some h =>
      ((((((out.state.setR 0 (msgWord h.msg)).setR 1 h.sid).setR 2 (BitVec.ofNat 32 h.idx)).setR 3 h.ce).setR 4
        h.tbs).setR 5 (descWord h.len h.start h.qm true true)).finish .ok
    | none => out.state.finish .noSci

/-- SCAN (R151). -/
def execScan (s : State) : Host.Outcome State Fault Refusal := .next (opScan Config.hw s)

end Sys2Proof.Machine
end

