-- ==== Sys2Proof/Machine/TxScheduler.lean ====
section
/-! DEFINITION. The TxScheduler: BUILDGRANT (spec/45_tx_scheduler.md rules R230 to R236). -/

namespace Sys2Proof.Machine

/-- `tx_eligible(slot)`: plain round robin (R230). -/
def txEligible (C : Config) (slot : Word) : Bool := slot.toNat % C.nodeCount == C.nodeId

/-- Divide `p` out of `n` as often as it divides, at most `fuel` times. -/
def stripFactor (p : Nat) : Nat → Nat → Nat
  | 0, n => n
  | fuel + 1, n => if n % p = 0 then stripFactor p fuel (n / p) else n

/-- `smooth5(n)`: `n >= 1` and no prime factor but 2, 3 and 5 (R231). -/
def smooth5 (n : Int) : Bool :=
  if n < 1 then false
  else
    let k := n.toNat
    stripFactor 5 k (stripFactor 3 k (stripFactor 2 k k)) == 1

/-- The smallest MCS index up to `MCS_MAX` whose size holds the payload (R232, C2). -/
def findMcs (C : Config) (nPrb : Int) (bits : Word) : Option (BitVec 5) :=
  ((List.range (C.mcsMax + 1)).map (BitVec.ofNat 5)).find? fun mcs => decide (bits.toNat ≤ (C.tbs mcs nPrb).toNat)

/-- A pair `(L, mcs)` of the search (R232). -/
structure Candidate where
  len : Nat
  mcs : BitVec 5
deriving DecidableEq, Repr

/-- The first sufficient MCS of the allocation length `len`, none when its PRB count is not admissible (R231,
R232). -/
def candidateAt (C : Config) (c : PoolCfg) (bits : Word) (len : Nat) : Option Candidate :=
  if smooth5 (dataPrbs C c len) then (findMcs C (dataPrbs C c len) bits).map fun mcs => { len := len, mcs := mcs }
  else none

/-- The ascending search over `L = 1 .. n_subch`, each with its MCS indices (R232). -/
def findCandidate (C : Config) (c : PoolCfg) (bits : Word) : Option Candidate :=
  (List.range c.nSubch.toNat).findSome? fun k => candidateAt C c bits (k + 1)

/-- What `build_grant` returns (R232). -/
structure BuildOut where
  status : Status
  msg : Option SciMsg
  state : State

/-- The first-generation message of a candidate and a start subchannel (R232, R233). -/
def builtMsg (C : Config) (c : PoolCfg) (x : Candidate) (start : Nat) : SciMsg :=
  { prio := C.txPrio, resv := C.txResv, riv := BitVec.ofNat 8 (rivEncode c.nSubch.toNat x.len start), gap := C.txGap,
    mcs := x.mcs, rti := false }

/-- The request fails and is logged (R232, R272). -/
def noGrant (s : State) : BuildOut := { status := .noGrant, msg := none, state := s.count .noGrant }

/-- The first generation: search, one draw, one message, remembered in `tx_last` (R232). -/
def buildFirst (C : Config) (bits : Word) (s : State) : BuildOut :=
  match findCandidate C s.cfg bits with
  | some x =>
    let q := askRand C s (s.cfg.nSubch.toNat - x.len)
    let m := builtMsg C s.cfg x q.1
    { status := .ok, msg := some m, state := { q.2 with txLast := some m } }
  | none => noGrant s

/-- The second generation repeats `tx_last` with `rti = 1`, which is not consumed (R232, R234). -/
def buildSecond (s : State) : BuildOut :=
  match s.txLast with
  | some m => { status := .ok, msg := some { m with rti := true }, state := s }
  | none => noGrant s

/-- `build_grant(slot, bits, rti)` (R232). -/
def buildGrant (C : Config) (slot bits : Word) (rti : Bool) (s : State) : BuildOut :=
  if !txEligible C slot then { status := .notEligible, msg := none, state := s }
  else if rti then buildSecond s
  else buildFirst C bits s

/-- The data encode request of a message, `tx_request(m)` (R236, R258). -/
def txRequest (C : Config) (c : PoolCfg) (m : SciMsg) : TxRequest :=
  let d := msgAlloc c m
  { tbs := occasionTbs C c m, qm := C.qm m.mcs, nPrb := dataPrbs C c d.len, firstPrb := firstDataPrb C c d.start }

/-- The result registers of a built grant: `R0`, `R2`, `R3`, `R4`, `R5` (R232). -/
def State.grantResults (s : State) (C : Config) (m : SciMsg) : State :=
  let d := msgAlloc s.cfg m
  let q := txRequest C s.cfg m
  ((((s.setR 0 (msgWord m)).setR 2 (BitVec.ofInt 32 q.nPrb)).setR 3 (BitVec.ofNat 32 q.firstPrb)).setR 4
    q.tbs).setR 5 (descWord d.len d.start q.qm true true)

/-- BUILDGRANT for any configuration record (R232). -/
def opBuildgrant (C : Config) (rti : Bool) (s : State) : State :=
  s.whenConfigured fun s =>
    let out := buildGrant C (s.opA 0) (s.opA 1) rti s
    match out.msg with
    | some m => (out.state.grantResults C m).finish out.status
    | none => out.state.finish out.status

/-- BUILDGRANT (R232). -/
def execBuildgrant (rti : Bool) (s : State) : Host.Outcome State Fault Refusal := .next (opBuildgrant Config.hw rti s)

end Sys2Proof.Machine
end

