-- ==== Sys2Proof/Machine/System.lean ====
section
/-! DEFINITION. The system operations RESET, CONFIGURE and WORK (spec/46_system.md rules R250 to R259). -/

namespace Sys2Proof.Machine

/-! ### RESET -/

/-- The handles of the held payload buffers, in ascending `(p, tb)` order over the processes that exist (R250). -/
def heldHandles (C : Config) (s : State) : List Word :=
  (List.range 255).flatMap fun p => (List.range 2).filterMap fun tb =>
    if (s.sub p tb).payload != 0 && addressInRange C p tb then some (s.sub p tb).payload else none

/-- RESET for any configuration record (R46, R250). -/
def opReset (C : Config) (s : State) : State :=
  { s with
    history := s.history ++ (heldHandles C s).map Event.dealloc
    procs := Vector.replicate 255 (Vector.replicate 2 .reset)
    pairs := Vector.replicate 20 .empty
    csState := .idle
    csIdx := 0
    retxSum := 0
    pktCnt := 0
    counters := Vector.replicate 9 0
    txLast := none
    lastTick := none }.finish .ok

/-- RESET (R250). -/
def execReset (s : State) : Host.Outcome State Fault Refusal := .next (opReset Config.hw s)

/-! ### CONFIGURE -/

/-- The validity condition of a configuration (R252, with R26). -/
def cfgLegal (C : Config) (c : PoolCfg) : Bool :=
  decide (1 ≤ c.nSubch.toNat) && decide (c.nSubch.toNat ≤ nSubchMax) &&
  decide (1 ≤ c.width.toNat) && decide (c.width.toNat ≤ widthMax) &&
  decide (1 ≤ c.bitmapLen.toNat) && decide (c.bitmapLen.toNat ≤ bitmapMax) &&
  ((c.syncPeriod == 0 && c.syncOff == 0) || decide (c.syncOff.toNat < c.syncPeriod.toNat)) &&
  decide (c.startOff.toNat + c.nSubch.toNat * c.width.toNat ≤ C.nprbCarrier)

/-- The configuration the operand registers hold (R84, R252). -/
def operandCfg (s : State) : PoolCfg :=
  cfgOfOperands (s.opA 0) (s.opA 1) (s.opA 2) (s.opA 3) (s.opA 4) (s.opA 5)

/-- What a successful CONFIGURE drops: the buffer pairs, `tx_last`, the scanner's registers (R253). -/
def State.dropInFlight (s : State) : State :=
  { s with pairs := Vector.replicate 20 .empty, txLast := none }.scannerIdle

/-- CONFIGURE for any configuration record (R252). -/
def opConfigure (C : Config) (s : State) : State :=
  if cfgLegal C (operandCfg s) then ({ s with cfg := operandCfg s, cfgValid := true }.dropInFlight).finish .ok
  else s.finish .cfgInvalid

/-- CONFIGURE (R252). -/
def execConfigure (s : State) : Host.Outcome State Fault Refusal := .next (opConfigure Config.hw s)

/-! ### WORK -/

/-- The pid of a received transport block (R256). -/
def rxPid (C : Config) (slot : Word) (rti : Bool) (gap : BitVec 4) : Nat :=
  (if rti then slot - BitVec.setWidth 32 gap else slot).toNat % C.nProc

/-- The grant WORK derives from a received message (R257). -/
def rxGrant (m : SciMsg) (tbs slot : Word) : Grant :=
  { kind := .sidelink, ndiPresent := true, ndi := !m.rti, tbs := tbs, slot := slot, gap := m.gap, rti := m.rti }

/-- The receive-stage summary and the state it leaves. -/
structure RxOut where
  summary : RxSummary
  state : State

/-- The summary before a message was found (R255). -/
def noMessage : RxSummary := { status := .noSci, pid := 0, gen := .none, prevOk := false, hit := false, idx := 0 }

/-- The receive stage after a hit: grant handling, then, if the grant was accepted, the combiner and the delivery
(R255 step 2). -/
def receiveHit (C : Config) (slot : Word) (h : Hit) (s : State) : RxOut :=
  let pid := rxPid C slot h.msg.rti h.msg.gap
  let g := newGrant C pid 0 (rxGrant h.msg h.tbs slot) s
  if g.act.decodeEnabled then
    let x := combine C h.idx h.msg h.sid slot h.ce g.handle g.state
    let d := tbDecoded pid 0 x.success x.state
    { summary := { status := d.status, pid := pid, gen := x.gen, prevOk := x.prevOk, hit := true, idx := h.idx }
      state := d.state }
  else
    { summary := { status := g.status, pid := pid, gen := .none, prevOk := false, hit := true, idx := h.idx }
      state := g.state }

/-- The receive stage with the result registers it writes: `R3` and `R5` on a hit, `R1` always (R255). -/
def receiveStage (C : Config) (slot : Word) (s : State) : State :=
  let out := scan C slot s
  match out.hit with
  | none => out.state.setR 1 (rxWord noMessage)
  | some h =>
    let x := receiveHit C slot h ((out.state.setR 3 (msgWord h.msg)).setR 5 h.sid)
    x.state.setR 1 (rxWord x.summary)

/-- The transmit stage with the result registers it writes: `R4`, `R6`, `R7` when a grant goes out, `R2` always
(R255 step 3, R258). -/
def transmitStage (C : Config) (tick slot : Word) (txReq txRti : Bool) (s : State) : State :=
  if txReq then
    let out := buildGrant C slot (s.opA 1) txRti s
    match out.msg with
    | some m =>
      let code := sciEncode out.state.cfg.nSubch.toNat m
      let s1 := out.state.note (.txOut tick code.info code.crc (txRequest C out.state.cfg m))
      (((s1.setR 4 (msgWord m)).setR 6 code.info).setR 7 (crcWord code.crc)).setR 2 (txWord out.status true)
    | none => out.state.setR 2 (txWord out.status false)
  else s.setR 2 (txWord .ok false)

/-- The tick is not above the last worked one (R42, R255). -/
def tickRefused (s : State) (tick : Word) : Bool :=
  match s.lastTick with
  | some t => decide (tick.toNat ≤ t.toNat)
  | none => false

/-- WORK for any configuration record (R254, R255). -/
def opWork (C : Config) (txReq txRti : Bool) (s : State) : State :=
  s.whenConfigured fun s =>
    let tick := s.opA 0
    if tickRefused s tick then s.finish .badOperand
    else
      let s1 := { s with lastTick := some tick }
      match slotIndex s.cfg tick.toNat with
      | none => (s1.setR 0 noOrdinal).finish .notInPool
      | some k =>
        let slot := BitVec.ofNat 32 k
        let s2 := receiveStage C slot (s1.setR 0 slot)
        (transmitStage C tick slot txReq txRti s2).finish .ok

/-- WORK (R255). -/
def execWork (txReq txRti : Bool) (s : State) : Host.Outcome State Fault Refusal := .next (opWork Config.hw txReq txRti s)

end Sys2Proof.Machine
end

