-- ==== Sys2Proof/Machine/HostPort.lean ====
section
/-! DEFINITION. The host's side of the block: the register space of spec/20_memory.md rule R61, what an illegal
command word does (spec/30_encoding.md rule R87), the host actions of the assembler notation of rule R88, and the 14
operations as one function of a configuration record. -/

namespace Sys2Proof.Machine

/-- The index of the command register (R61). -/
def cmdIndex : Nat := 0x10

/-- What a host read of register `index` returns; it changes nothing (R61, R65). -/
def State.readReg (s : State) (index : Nat) : Word :=
  if h : index < 8 then s.a[index]
  else if h : index < 16 then s.r[index - 8]
  else if index = 0x11 then s.status
  else if h : 0x20 ≤ index ∧ index < 0x29 then s.counters[index - 0x20]
  else if index = 0x29 then s.retxSum
  else if index = 0x2A then s.pktCnt
  else 0

/-- A host write to a register other than CMD: the operand registers take it, every other index ignores it
(R61). -/
def State.writeReg (s : State) (index : Nat) (v : Word) : State :=
  if h : index < 8 then s.setA ⟨index, h⟩ v else s

/-- An illegal command word: "do nothing", STATUS says so (R87). -/
def State.illegalCommand (s : State) : State := s.finish .illegalCmd

/-- A host read: its value reaches the host (log entry 3). -/
def State.hostRead (s : State) (index : Nat) : State := { s with readData := some (s.readReg index) }

/-! ### The host actions of rule R88 -/

/-- `SET An, value` (R88). -/
def setAction (n : Nat) (v : Word) : HostAccess := .write n v

/-- `LDMSG An, prio, resv, riv, gap, mcs, rti` (R88). -/
def ldmsgAction (n : Nat) (m : SciMsg) : HostAccess := .write n (msgWord m)

/-- Issue an operation: write its word to CMD (R61, R88). -/
def issueAction (i : Instr) : HostAccess := .write cmdIndex (encode i)

/-! ### The operations for any configuration record -/

/-- The effect of an operation under the configuration record `C` (R86). `exec` is this at `Config.hw`, arm by arm;
the record is an argument here so that the model can be run with concrete parameters and answers. -/
def operate (C : Config) : Instr → State → State
  | .reset => opReset C
  | .configure => opConfigure C
  | .slotidx => opSlotidx
  | .subchoff idx => opSubchoff idx
  | .rivenc len start => opRivenc len start
  | .rivdec riv => opRivdec riv
  | .scienc => opScienc
  | .scidec => opScidec C
  | .scan => opScan C
  | .combine ctx => opCombine C ctx
  | .newgrant pid tb kind ndiPresent ndi => opNewgrant C pid tb kind ndiPresent ndi
  | .tbdecoded pid tb ack => opTbdecoded C pid tb ack
  | .buildgrant rti => opBuildgrant C rti
  | .work txReq txRti => opWork C txReq txRti

/-- A host access performed under the configuration record `C` (R61, R66, R87). -/
def access (C : Config) (x : HostAccess) (s : State) : State :=
  match x with
  | .read index => s.hostRead index
  | .write index v =>
    if index = cmdIndex then
      match decode v with
      | .ok i => operate C i s
      | .error _ => s.illegalCommand
    else s.writeReg index v

end Sys2Proof.Machine
end

