-- ==== Sys2Proof/Machine/Dispatch.lean ====
section
/-! DEFINITION. One arm per operation: each calls its own meaning. -/

namespace Sys2Proof.Machine

def exec (i : Instr) (s : State) : Host.Outcome State Fault Refusal :=
  match i with
  | .reset => Sys2Proof.Machine.execReset s
  | .configure => Sys2Proof.Machine.execConfigure s
  | .slotidx => Sys2Proof.Machine.execSlotidx s
  | .subchoff idx => Sys2Proof.Machine.execSubchoff idx s
  | .rivenc len start => Sys2Proof.Machine.execRivenc len start s
  | .rivdec riv => Sys2Proof.Machine.execRivdec riv s
  | .scienc => Sys2Proof.Machine.execScienc s
  | .scidec => Sys2Proof.Machine.execScidec s
  | .scan => Sys2Proof.Machine.execScan s
  | .combine ctx => Sys2Proof.Machine.execCombine ctx s
  | .newgrant pid tb kind ndiPresent ndi => Sys2Proof.Machine.execNewgrant pid tb kind ndiPresent ndi s
  | .tbdecoded pid tb ack => Sys2Proof.Machine.execTbdecoded pid tb ack s
  | .buildgrant rti => Sys2Proof.Machine.execBuildgrant rti s
  | .work txReq txRti => Sys2Proof.Machine.execWork txReq txRti s

end Sys2Proof.Machine
end

