-- ==== Sys2Proof/Machine/Step.lean ====
section
/-! DEFINITION. One step: the block performs the oldest pending access of the host; a write to CMD executes one
operation atomically (spec/20_memory.md rules R61 and R66). With no access pending the block is idle and keeps all its
state (spec/60_exceptions.md rules R273 and R285). -/

namespace Sys2Proof.Machine

/-- A command word written to CMD: the decoded operation runs, an illegal word does nothing (R66, R87). -/
def runCommand (w : Word) (s : State) : Host.Outcome State Fault Refusal :=
  match decode w with
  | .ok i => exec i s
  | .error _ => .next s.illegalCommand

/-- One step of the machine (R20, R66). -/
def step (s : State) : Host.Outcome State Fault Refusal :=
  match s.inbox with
  | [] => .next s
  | x :: rest =>
    let s1 := { s with inbox := rest }
    match x with
    | .read index => .next (s1.hostRead index)
    | .write index v => if index = cmdIndex then runCommand v s1 else .next (s1.writeReg index v)

/-- The state in which the host's next access is the write of the command word `w` to CMD: the block has no
instruction memory and fetches nothing (R23), so this is where the next step takes its operation from. A command has
32 bits (R80); bits of `w` above `nbits` do not exist and are zero. -/
def State.withFetchWord (s : State) (nbits w : Nat) : State :=
  { s with inbox := .write cmdIndex (BitVec.ofNat 32 (w % 2 ^ nbits)) :: s.inbox }

end Sys2Proof.Machine
end

