-- ==== Sys2Proof/Safety.lean ====
section
/-! DEFINITION. What counts as a safe state of SLCORE, in the terms the obligations use: the invariants of the data
model that the spec states (spec/10_state.md rules R26, R29, R33, R36 to R38, R41, R43; spec/44_harq_entity.md rules
R196, R200 and R202; spec/45_tx_scheduler.md rules R231 and R232; spec/60_exceptions.md rule R271), the order of transmit
events (spec/20_memory.md rule R68), and the sequence of component operations that a WORK is compared with
(spec/46_system.md rule R259). -/

namespace Sys2Proof.Machine

/-! ### Invariants of a state -/

/-- A configuration in force is legal, and its bitmap has the elements its length says (R26, R252). -/
def ConfigLegal (C : Config) (s : State) : Prop :=
  s.cfgValid = true → cfgLegal C s.cfg = true ∧ s.cfg.bitmap.length = s.cfg.bitmapLen.toNat

/-- The calendar part of a legal configuration: what `slot_index` needs of rule R26. -/
def CalendarLegal (c : PoolCfg) : Prop :=
  1 ≤ c.bitmapLen.toNat ∧ c.bitmap.length = c.bitmapLen.toNat ∧
  ((c.syncPeriod.toNat = 0 ∧ c.syncOff.toNat = 0) ∨ c.syncOff.toNat < c.syncPeriod.toNat)

/-- Between operations the scanner is idle (R29). -/
def ScannerIdle (s : State) : Prop := s.csState = .idle ∧ s.csIdx = 0

/-- STATUS holds one of the listed codes and zero above it (R24, R271). -/
def StatusListed (s : State) : Prop := ∃ st : Status, s.status = st.word

/-- A payload handle is held exactly while a decode is awaited (R38). -/
def PayloadOwned (sp : SubProc) : Prop := sp.payload ≠ 0 ↔ sp.state = .awaitingDecode

/-- Every sub-process owns its payload buffer as rule R38 says. -/
def PayloadsOwned (s : State) : Prop := ∀ p tb, PayloadOwned (s.sub p tb)

/-- The records of a sub-process that belong together (R36, R37, R43 (1), R196): the first-grant flag and the
last-grant snapshot; the accumulated success flag and the state; the declared size of the process's soft buffer, which
is the size of the last grant, and its emptiness. -/
structure SubRecords (sp : SubProc) : Prop where
  snapshot : sp.first = !sp.last.isSome
  okAcked : sp.state = .decodedOk → sp.ack = true
  koNotAcked : sp.state = .decodedKo → sp.ack = false
  emptyNotAcked : sp.state = .empty → sp.ack = false
  noSoft : sp.sb.acc = [] ∧ sp.sb.ok = false
  sized : ∀ g, sp.last = some g → sp.sb.tbs = some sp.tbs.toNat ∧ g.tbs = sp.tbs

/-- Every sub-process keeps its records together. -/
def SubsRecorded (s : State) : Prop := ∀ p tb, SubRecords (s.sub p tb)

/-- Between operations a fresh buffer holds at most the last occasion, a combined buffer at most one first
generation, and an empty combined buffer is not marked successful (R170 steps 2, 3 and 6, R172 (iii)). -/
structure PairWindow (p : BufferPair) : Prop where
  freshShort : p.fresh.acc.length ≤ 1
  combShort : p.comb.acc.length ≤ 1
  combUnmarked : p.comb.acc = [] → p.comb.ok = false

/-- Every buffer pair keeps its two-occasion window. -/
def PairsWindowed (s : State) : Prop := ∀ c, PairWindow (s.pair c)

/-- A remembered first generation is one, under the configuration in force (R41, R232, R253). -/
def TxLastBuilt (s : State) : Prop :=
  ∀ m, s.txLast = some m → m.rti = false ∧ s.cfgValid = true ∧ (msgAlloc s.cfg m).ok = true

/-- A remembered first generation has an admissible data PRB count, as the search that built it asked (R231, R232,
R253). -/
def TxLastAdmissible (C : Config) (s : State) : Prop :=
  ∀ m, s.txLast = some m → smooth5 (dataPrbs C s.cfg (msgAlloc s.cfg m).len) = true

/-- A sub-process that awaits a decode has a last-grant snapshot (R200). -/
def AwaitingRecorded (s : State) : Prop :=
  ∀ p tb, (s.sub p tb).state = .awaitingDecode → (s.sub p tb).last.isSome = true

/-- The invariant of the data model. -/
structure State.Inv (C : Config) (s : State) : Prop where
  config : ConfigLegal C s
  scanner : ScannerIdle s
  statusListed : StatusListed s
  payloads : PayloadsOwned s
  subs : SubsRecorded s
  awaiting : AwaitingRecorded s
  pairs : PairsWindowed s
  txLast : TxLastBuilt s
  txAdmissible : TxLastAdmissible C s

/-! ### Grants, in the words of rules R193, R197 and R198 -/

/-- Equal signatures, written out: kind, size, first-occasion time, gap (R193). -/
def SigEqual (g l : Grant) : Prop := g.kind = l.kind ∧ g.tbs = l.tbs ∧ g.t0 = l.t0 ∧ g.gap = l.gap

/-- The grant repeats a block already decoded successfully (R199). -/
def Repeats (sp : SubProc) (g : Grant) : Prop :=
  sp.first = false ∧ sp.ack = true ∧ ∃ l, sp.last = some l ∧ SigEqual g l

/-- The grant is a new transmission (R197). -/
def StartsNew (sp : SubProc) (g : Grant) : Prop := (g.ndiPresent = true ∧ g.ndi = true) ∨ sp.first = true

/-- The grant goes on from the last one: its time-gap connects the two (R198). -/
def Continues (sp : SubProc) (g : Grant) : Prop := ∃ l, sp.last = some l ∧ g.t0 = l.t0 ∧ g.gap = l.gap

/-- A sub-process that has just begun a lifecycle with grant `g` and the payload handle `h` that `Alloc` answered
(R194, R195). -/
def begunWith (g : Grant) (h : Word) : SubProc :=
  { state := if h = 0 then .empty else .awaitingDecode, first := false, ack := false, nRetx := 0, dupCnt := 0,
    tbs := g.tbs, last := some g, payload := h, sb := { tbs := some g.tbs.toNat, acc := [], ok := false } }

/-- The operand registers of a host access to the HARQ entity are well formed: the gate is open, the address in
range, the reserved bits of `GNTW` zero (R84, R192, R195). -/
def GrantReady (s : State) (pid tb : Byte) : Prop :=
  s.cfgValid = true ∧ pid.toNat ≤ Config.hw.nProc ∧ tb.toNat < Config.hw.nTb ∧ (s.a[2]).toNat < 32

/-! ### The event history -/

/-- The ticks of the transmit events of a history, in order (R258). -/
def txTicks (h : List Event) : List Nat :=
  h.filterMap fun e => match e with
    | .txOut tick _ _ _ => some tick.toNat
    | _ => none

/-- The handles that a history pushed to the demux, in order (R13). -/
def pushes (h : List Event) : List Word :=
  h.filterMap fun e => match e with
    | .push _ handle _ => some handle
    | _ => none

/-- The transmit events from position `start` of the history on are in strictly increasing tick order, none later than
the last worked tick (R42, R68). With `start` the length of the history right after the last RESET, or 0 before the
first one, they are the transmit events of the running tick epoch (R250, R313; log entry 7). -/
def EpochOrdered (start : Nat) (s : State) : Prop :=
  (txTicks (s.history.drop start)).Pairwise (· < ·) ∧
  ∀ t ∈ txTicks (s.history.drop start), ∃ l, s.lastTick = some l ∧ t ≤ l.toNat

/-- The next access of the host is a write of `w` to CMD, `rest` being left after it (R61). -/
def NextCommand (s : State) (w : Word) (rest : List HostAccess) : Prop := s.inbox = .write cmdIndex w :: rest

/-! ### The scan as a property of the answers (R151) -/

/-- What the scanner makes of candidate `i` of a scan that starts in `s`: question `i` of the scan is question
`asks + i` of the machine. -/
def candidate (C : Config) (slot : Word) (s : State) (i : Nat) : SciDecoded :=
  sciDecode C s.cfg (C.ctrlRx (s.asks + i) slot i).info (C.ctrlRx (s.asks + i) slot i).parity

/-- Candidate `i` is accepted: its checksum validates, its `riv` is valid and its start is `i` (R150, R151). -/
def accepted (C : Config) (slot : Word) (s : State) (i : Nat) : Bool :=
  (candidate C slot s i).crcOk && consistentAt (candidate C slot s i) i

/-! ### The sequence of component operations that a WORK is compared with (R259) -/

/-- The part of the state that rule R259 speaks of: everything but the operand and result registers and STATUS. -/
def State.effect (s : State) : State :=
  { s with a := Vector.replicate 8 0, r := Vector.replicate 8 0, status := 0 }

/-- The host writes operand registers `A0` to `A4` (R21). -/
def State.loadA (s : State) (a0 a1 a2 a3 a4 : Word) : State :=
  ((((s.setA 0 a0).setA 1 a1).setA 2 a2).setA 3 a3).setA 4 a4

/-- The word `GNTW` of a gap and a generation (R84). -/
def gntWord (gap : BitVec 4) (rti : Bool) : Word := 0#27 ++ BitVec.ofBool rti ++ gap

/-- The receive part of the sequence: SCAN, on a hit NEWGRANT with the operands of rules R256 and R257, then, if
`decode_enabled`, COMBINE with the hit's index as context and the payload handle in `A4`, then TBDECODED with the
decode's success. Every operand comes from a result register of the operation before it. -/
def hostReceive (C : Config) (slot : Word) (s : State) : State :=
  let s1 := opScan C (s.loadA slot 0 0 0 0)
  if s1.status = Status.ok.word then
    let m := msgOfWord (s1.r[0])
    let pid := BitVec.ofNat 8 (rxPid C slot m.rti m.gap)
    let s2 := opNewgrant C pid 0 .sidelink true (!m.rti) (s1.loadA (s1.r[4]) slot (gntWord m.gap m.rti) 0 0)
    if (s2.r[0]).getLsbD 0 then
      let s3 := opCombine C ((s1.r[2]).setWidth 8) (s2.loadA (s1.r[0]) (s1.r[1]) slot (s1.r[3]) (s2.r[1]))
      opTbdecoded C pid 0 ((s3.r[0]).getLsbD 0) s3
    else s2
  else s1

/-- The transmit part of the sequence: BUILDGRANT, on a grant SCIENC of the built message and the `TxOut` event,
which only WORK can make. -/
def hostTransmit (C : Config) (tick slot bits : Word) (rti : Bool) (s : State) : State :=
  let s1 := opBuildgrant C rti (s.loadA slot bits 0 0 0)
  if s1.status = Status.ok.word then
    let s2 := opScienc (s1.loadA (s1.r[0]) 0 0 0 0)
    s2.note (.txOut tick (s2.r[0]) (parityOf (s2.r[1])) (txRequest C s2.cfg (msgOfWord (s1.r[0]))))
  else s1

end Sys2Proof.Machine
end

