-- ==== Sys2Proof/Certificates/Slice0/Obligations.lean ====
section
/-! DEFINITION. The statements for the provers, one `def Obligations.<Name> : Prop` each; OBLIGATIONS.json lists them
with the rules of spec/ they formalise. `Config.hw` is the opaque record of parameters and external answers, so a
statement about `exec` or `step` holds for every legal parameter value and every answer; a statement that needs a
premise about an answer is made for every record `C`, of which `exec` is the case `Config.hw` (`ExecIsOperateAtHw`). -/

open Sys2Proof Sys2Proof.Machine

/-! ### Encoding -/

/-- Decoding the command word of an operation gives the operation back, for every operand value. -/
def Obligations.DecodeOfEncode : Prop := ∀ i : Instr, decode (encode i) = .ok i

/-- A command word that decodes is the encoding of what it decodes to: no second encoding of an operation exists, so
no word executes as another operation (R87, R89). -/
def Obligations.EncodeOfDecode : Prop := ∀ (w : Word) (i : Instr), decode w = .ok i → encode i = w

/-- The decoder, which reads fields, accepts exactly the words that select a row of the match and mask table. -/
def Obligations.DecodeAcceptsExactlyTheTable : Prop :=
  ∀ w : Word, (∃ i, decode w = .ok i) ↔ wordLegal w = true

/-- A few command words of the spec decode to the operations they stand for. -/
def Obligations.SpecWordsDecode : Prop :=
  decode 0x500F0002#32 = .ok (.newgrant 2 0 .sidelink true true) ∧
  decode 0x51010002#32 = .ok (.tbdecoded 2 0 true) ∧
  decode 0x12000401#32 = .ok (.rivenc 4 1) ∧
  decode 0x70000003#32 = .ok (.work true true) ∧
  decode 0x01000000#32 = .ok .reset

/-! ### The step and the host's register space -/

/-- A step whose pending access is the write of a decodable word to CMD runs the decoded operation on the state
without that access. -/
def Obligations.StepRunsDecoded : Prop :=
  ∀ (s : State) (w : Word) (rest : List HostAccess) (i : Instr),
    NextCommand s w rest → decode w = .ok i → step s = exec i { s with inbox := rest }

/-- A word that selects no row of the opcode map writes `ILLEGAL_CMD` to STATUS and touches nothing else (the access
leaves the queue of pending accesses); the all-zero word is one of them; and a word that decodes selects the row of the
operation it decodes to, so no word executes as another operation (R87). -/
def Obligations.IllegalWordOnlySetsStatus : Prop :=
  (∀ (s : State) (w : Word) (rest : List HostAccess), NextCommand s w rest → wordLegal w = false →
    step s = .next { s with inbox := rest, status := 0xFF }) ∧
  wordLegal 0x00000000#32 = false ∧
  (∀ (w : Word) (i : Instr), decode w = .ok i → selectedRows w = [i.mnemonic])

/-- A host read returns the register the map of rule R61 gives for the index, 0 for CMD and every reserved index, and
changes nothing of the block. -/
def Obligations.HostReadReturnsMappedRegister : Prop :=
  ∀ (s : State) (index : Nat) (rest : List HostAccess), s.inbox = .read index :: rest →
    ∃ v, step s = .next { s with inbox := rest, readData := some v } ∧
      (∀ k : Fin 8, index = k.val → v = s.a[k]) ∧
      (∀ k : Fin 8, index = 8 + k.val → v = s.r[k]) ∧
      (index = 0x11 → v = s.status) ∧
      (∀ k : Counter, index = 0x20 + k.index.val → v = s.counter k) ∧
      (index = 0x29 → v = s.retxSum) ∧
      (index = 0x2A → v = s.pktCnt) ∧
      (index = 0x10 ∨ (0x12 ≤ index ∧ index < 0x20) ∨ 0x2A < index → v = 0)

/-- A host write reaches an operand register, and is ignored by every other index but CMD (R61). -/
def Obligations.HostWriteReachesOperandsOnly : Prop :=
  ∀ (s : State) (index : Nat) (v : Word) (rest : List HostAccess), s.inbox = .write index v :: rest →
    (∀ k : Fin 8, index = k.val → step s = .next { s with inbox := rest, a := s.a.set k v }) ∧
    (8 ≤ index → index ≠ 0x10 → step s = .next { s with inbox := rest })

/-- With no access pending the block is idle and keeps all its state (R285). -/
def Obligations.IdleBlockKeepsState : Prop := ∀ s : State, s.inbox = [] → step s = .next s

/-- No step faults and none is refused: every state has exactly one next state (R270). -/
def Obligations.EveryStepContinues : Prop := ∀ s : State, ∃ t, step s = .next t

/-- Every operation is the function `operate` at the opaque record, and so is every host access (R9, R86). -/
def Obligations.ExecIsOperateAtHw : Prop :=
  (∀ (i : Instr) (s : State), exec i s = .next (operate Config.hw i s)) ∧
  (∀ (s : State) (x : HostAccess) (rest : List HostAccess), s.inbox = x :: rest →
    step s = .next (access Config.hw x { s with inbox := rest }))

/-- Before a configuration is accepted every operation but RESET and CONFIGURE ends with `CFG_INVALID` and does
nothing (R280, R303). -/
def Obligations.UnconfiguredOnlySetsStatus : Prop :=
  ∀ (i : Instr) (s : State), s.cfgValid = false → i ≠ .reset → i ≠ .configure →
    exec i s = .next { s with status := 0x31 }

/-! ### ResourcePool -/

/-- The closed form of `slot_index` that the operations use equals the definition by counting. Rule R121, which gives
the closed form, is marked an inference from rule R111 by the spec. -/
def Obligations.ClosedFormCountsTicks : Prop :=
  ∀ (c : PoolCfg) (t : Nat), CalendarLegal c → slotIndex c t = slotIndexByCount c t

/-- SLOTIDX writes the ordinal, counted as rule R111 defines it, or the sentinel with `NOT_IN_POOL`; nothing else
changes (R112). -/
def Obligations.SlotidxGivesOrdinal : Prop :=
  ∀ s : State,
    (s.cfgValid = false → exec .slotidx s = .next { s with status := 0x31 }) ∧
    (s.cfgValid = true → CalendarLegal s.cfg →
      exec .slotidx s = .next (match slotIndexByCount s.cfg (s.a[0]).toNat with
        | some k => { s with r := s.r.set 0 (BitVec.ofNat 32 k), status := 0x00 }
        | none => { s with r := s.r.set 0 0xFFFFFFFF#32, status := 0x01 }))

/-- SUBCHOFF writes the first PRB and the width of a subchannel of the pool, refuses an index outside it, and changes
nothing else (R114). -/
def Obligations.SubchoffGivesRange : Prop :=
  ∀ (s : State) (idx : Byte),
    (s.cfgValid = false → exec (.subchoff idx) s = .next { s with status := 0x31 }) ∧
    (s.cfgValid = true → s.cfg.nSubch.toNat ≤ idx.toNat → exec (.subchoff idx) s = .next { s with status := 0x32 }) ∧
    (s.cfgValid = true → idx.toNat < s.cfg.nSubch.toNat →
      exec (.subchoff idx) s = .next { s with
        r := (s.r.set 0 (BitVec.ofNat 32 (s.cfg.startOff.toNat + idx.toNat * s.cfg.width.toNat))).set 1
          (BitVec.ofNat 32 s.cfg.width.toNat)
        status := 0x00 })

/-- RIVENC writes the value of an allocation inside the pool by the formula of rule R116, refuses every other pair,
and changes nothing else (R118). -/
def Obligations.RivencGivesValue : Prop :=
  ∀ (s : State) (len start : Byte),
    (s.cfgValid = false → exec (.rivenc len start) s = .next { s with status := 0x31 }) ∧
    (s.cfgValid = true → (len.toNat < 1 ∨ s.cfg.nSubch.toNat < len.toNat + start.toNat) →
      exec (.rivenc len start) s = .next { s with status := 0x32 }) ∧
    (s.cfgValid = true → 1 ≤ len.toNat → len.toNat + start.toNat ≤ s.cfg.nSubch.toNat →
      exec (.rivenc len start) s = .next { s with
        r := s.r.set 0 (BitVec.ofNat 32
          (if len.toNat - 1 ≤ s.cfg.nSubch.toNat / 2 then s.cfg.nSubch.toNat * (len.toNat - 1) + start.toNat
           else s.cfg.nSubch.toNat * (s.cfg.nSubch.toNat - len.toNat + 1) + (s.cfg.nSubch.toNat - 1 - start.toNat)))
        status := 0x00 })

/-- RIVDEC inverts the encoding on the values below `n (n + 1) / 2`, refuses every other value, and changes nothing
else (R119). That validity is being below `n (n + 1) / 2` is marked an inference by the spec (in R117). -/
def Obligations.RivdecInvertsBelowTriangle : Prop :=
  ∀ (s : State) (riv : Byte),
    (s.cfgValid = false → exec (.rivdec riv) s = .next { s with status := 0x31 }) ∧
    (s.cfgValid = true → 1 ≤ s.cfg.nSubch.toNat → s.cfg.nSubch.toNat ≤ 20 →
      (riv.toNat < s.cfg.nSubch.toNat * (s.cfg.nSubch.toNat + 1) / 2 →
        ∃ len start : Nat, 1 ≤ len ∧ len + start ≤ s.cfg.nSubch.toNat ∧
          rivEncode s.cfg.nSubch.toNat len start = riv.toNat ∧
          exec (.rivdec riv) s = .next { s with
            r := (s.r.set 0 (BitVec.ofNat 32 len)).set 1 (BitVec.ofNat 32 start)
            status := 0x00 }) ∧
      (s.cfg.nSubch.toNat * (s.cfg.nSubch.toNat + 1) / 2 ≤ riv.toNat →
        exec (.rivdec riv) s = .next { s with status := 0x32 }))

/-- Decoding the value of an allocation within the pool gives the allocation back (R120). -/
def Obligations.RivRoundTrip : Prop :=
  ∀ n len start : Nat, 1 ≤ len → len + start ≤ n →
    rivDecode n (rivEncode n len start) = { len := len, start := start, ok := true }

/-! ### SciCodec -/

/-- Unpacking inverts packing for every message whose `riv` fits its field, and ignores the reserved bits of the
information word (R91). -/
def Obligations.UnpackInvertsPack : Prop :=
  ∀ n : Nat, 1 ≤ n → n ≤ 20 →
    (∀ m : SciMsg, m.riv.toNat < 2 ^ rivBits n → sciUnpack n (sciPack n m) = m) ∧
    (∀ x y : Word, x.toNat / 2 ^ (15 - rivBits n) = y.toNat / 2 ^ (15 - rivBits n) → sciUnpack n x = sciUnpack n y)

/-- The codeword of a message with a valid `riv` decodes to the message, its checksum to itself, both checks passed
(R131, R132). Rule R136, which says so, is marked an inference by the spec. -/
def Obligations.CodewordDecodesToMessage : Prop :=
  ∀ (C : Config) (c : PoolCfg) (m : SciMsg), 1 ≤ c.nSubch.toNat → c.nSubch.toNat ≤ 20 → (msgAlloc c m).ok = true →
    ∃ d, sciDecode C c (sciEncode c.nSubch.toNat m).info (sciEncode c.nSubch.toNat m).crc = d ∧
      d.msg = m ∧ d.rem = (sciEncode c.nSubch.toNat m).crc ∧ d.crcOk = true ∧ d.rivOk = true ∧
      rivEncode c.nSubch.toNat d.len d.start = m.riv.toNat

/-- The all-zero codeword passes both checks as a message for one subchannel at index 0. Rule R316, which says so, is
marked an inference by the spec. -/
def Obligations.AllZeroCodewordAccepted : Prop :=
  ∀ (C : Config) (c : PoolCfg), 1 ≤ c.nSubch.toNat → c.nSubch.toNat ≤ 20 →
    ∃ d, sciDecode C c 0 0 = d ∧ d.crcOk = true ∧ d.rivOk = true ∧ d.len = 1 ∧ d.start = 0

/-- SCIENC writes the information word and the checksum of the message in `A0`, refuses reserved bits and an invalid
`riv`, and changes nothing else (R133). -/
def Obligations.SciencGivesCodeword : Prop :=
  ∀ s : State,
    (s.cfgValid = false → exec .scienc s = .next { s with status := 0x31 }) ∧
    (s.cfgValid = true → ((s.a[0]).toNat ≥ 2 ^ 25 ∨ (msgAlloc s.cfg (msgOfWord (s.a[0]))).ok = false) →
      exec .scienc s = .next { s with status := 0x32 }) ∧
    (s.cfgValid = true → (s.a[0]).toNat < 2 ^ 25 → (msgAlloc s.cfg (msgOfWord (s.a[0]))).ok = true →
      exec .scienc s = .next { s with
        r := (s.r.set 0 (sciPack s.cfg.nSubch.toNat (msgOfWord (s.a[0])))).set 1
          ((crc16 (bitsOf 32 (sciPack s.cfg.nSubch.toNat (msgOfWord (s.a[0]))).toNat)).setWidth 32)
        status := 0x00 })

/-- SCIDEC writes the unpacked message, the remainder, the size and the descriptor on all of `OK`, `CRC_FAIL` and
`SCI_INVALID`, reports the checksum first, refuses reserved bits of `A1`, and changes nothing else (R135). -/
def Obligations.ScidecReportsChecksumFirst : Prop :=
  ∀ s : State,
    (s.cfgValid = false → exec .scidec s = .next { s with status := 0x31 }) ∧
    (s.cfgValid = true → 2 ^ 16 ≤ (s.a[1]).toNat → exec .scidec s = .next { s with status := 0x32 }) ∧
    (s.cfgValid = true → (s.a[1]).toNat < 2 ^ 16 →
      ∃ (d : SciDecoded) (st : Word),
        d = sciDecode Config.hw s.cfg (s.a[0]) ((s.a[1]).setWidth 16) ∧
        (d.crcOk = true ↔ ((s.a[1]).toNat = (crc16 (bitsOf 32 (s.a[0]).toNat)).toNat)) ∧
        (d.crcOk = false → st = 0x10) ∧
        (d.crcOk = true → d.rivOk = false → st = 0x12) ∧
        (d.crcOk = true → d.rivOk = true → st = 0x00) ∧
        exec .scidec s = .next { s with
          r := (((s.r.set 0 (msgWord d.msg)).set 1 (d.rem.setWidth 32)).set 2 d.tbs).set 3
            (descWord d.len d.start d.qm d.crcOk d.rivOk)
          status := st })

/-! ### Scanner -/

/-- SCAN examines the candidates in ascending order, accepts the first that passes the checksum, the `riv` and the start
test, asks for no candidate after it, and counts every rejected one; without such a candidate it ends `NO_SCI` and
writes no result register; the scanner ends idle and nothing else changes (R151). `k` is the number of rejected
candidates. -/
def Obligations.ScanFirstValidWins : Prop :=
  ∀ s : State,
    (s.cfgValid = false → exec .scan s = .next { s with status := 0x31 }) ∧
    (s.cfgValid = true → ∃ t k, exec .scan s = .next t ∧ k ≤ s.cfg.nSubch.toNat ∧
      (∀ j, j < k → accepted Config.hw (s.a[0]) s j = false) ∧
      t = { s with
        r := t.r, status := t.status, counters := t.counters, csState := .idle, csIdx := 0, asks := t.asks
        history := s.history ++ (List.range (t.asks - s.asks)).map fun j =>
          .ctrlRx (s.a[0]) j (Config.hw.ctrlRx (s.asks + j) (s.a[0]) j) } ∧
      t.counter .sciCrcFail = s.counter .sciCrcFail +
        BitVec.ofNat 32 ((List.range k).countP fun j => !(candidate Config.hw (s.a[0]) s j).crcOk) ∧
      t.counter .sciAlias = s.counter .sciAlias +
        BitVec.ofNat 32 ((List.range k).countP fun j => (candidate Config.hw (s.a[0]) s j).crcOk) ∧
      (∀ c : Counter, c ≠ .sciCrcFail → c ≠ .sciAlias → t.counter c = s.counter c) ∧
      (k = s.cfg.nSubch.toNat → t.status = 0x02 ∧ t.r = s.r ∧ t.asks = s.asks + k) ∧
      (k < s.cfg.nSubch.toNat →
        accepted Config.hw (s.a[0]) s k = true ∧ t.status = 0x00 ∧ t.asks = s.asks + k + 1 ∧
        t.r = (((((s.r.set 0 (msgWord (candidate Config.hw (s.a[0]) s k).msg)).set 1
          ((candidate Config.hw (s.a[0]) s k).rem.setWidth 32)).set 2 (BitVec.ofNat 32 k)).set 3
          (Config.hw.ctrlRx (s.asks + k) (s.a[0]) k).ce).set 4 (candidate Config.hw (s.a[0]) s k).tbs).set 5
          (descWord (candidate Config.hw (s.a[0]) s k).len (candidate Config.hw (s.a[0]) s k).start
            (candidate Config.hw (s.a[0]) s k).qm true true)))

/-- The scanner keeps no memory between scans: what a scan finds depends only on the configuration, the parameters and
the answers of `CtrlRx`. Rule R156, which says so, is marked an inference by the spec. The answers depend on the number
of the question in this model (log entry 2). -/
def Obligations.ScanHasNoMemory : Prop :=
  ∀ (C : Config) (slot : Word) (s u : State), s.cfg = u.cfg → s.asks = u.asks →
    (scan C slot s).hit = (scan C slot u).hit ∧ (scan C slot s).state.asks = (scan C slot u).state.asks

/-- The state machine of rule R152 and the loop of rule R151 are one: after the starting transition, `3 n + 1` further
transitions produce the loop's result and leave the loop's state (R152, R153). Both sides put the same questions and get
the same answers (log entry 2); the six scanner states are those of rule R152 (log entry 15). -/
def Obligations.ScannerMachineRunsLoop : Prop :=
  ∀ (C : Config) (slot : Word) (s : State), 1 ≤ s.cfg.nSubch.toNat →
    (scanTransitions C slot (3 * s.cfg.nSubch.toNat + 1) (scanStart s)).result = some (scan C slot s).hit ∧
    (scanTransitions C slot (3 * s.cfg.nSubch.toNat + 1) (scanStart s)).state = (scan C slot s).state

/-! ### Combiner -/

/-- COMBINE refuses a context outside the pool, reserved bits of `MSGW` and an invalid `riv`, with no other effect
(R171). -/
def Obligations.CombineRefusesOperands : Prop :=
  ∀ (s : State) (ctx : Byte),
    (s.cfgValid = false → exec (.combine ctx) s = .next { s with status := 0x31 }) ∧
    (s.cfgValid = true →
      (s.cfg.nSubch.toNat ≤ ctx.toNat ∨ 2 ^ 25 ≤ (s.a[0]).toNat ∨ (msgAlloc s.cfg (msgOfWord (s.a[0]))).ok = false) →
      exec (.combine ctx) s = .next { s with status := 0x32 })

/-- COMBINE on operands that pass its checks makes both decode attempts on every occasion, reports success if either
succeeded, names and stores the reported result by the tie parameter, and leaves the pair as the reset policy says: the
fresh buffer holds this occasion, the combined one also the first generation, until a second generation empties it;
nothing else changes (R172). The open answer of `DataRx` is `soft`; `prev` and `prevOk` are what the combined attempt
finds. -/
def Obligations.CombineFollowsResetPolicy : Prop :=
  ∀ (s : State) (ctx : Byte) (m : SciMsg) (size : Word) (soft : SoftVec) (prev : List SoftVec) (prevOk : Bool)
    (f c : FecAnswer),
    s.cfgValid = true → ctx.toNat < s.cfg.nSubch.toNat → ctx.toNat < 20 → (s.a[0]).toNat < 2 ^ 25 →
    m = msgOfWord (s.a[0]) → (msgAlloc s.cfg m).ok = true → size = occasionTbs Config.hw s.cfg m →
    soft = Config.hw.dataRx s.asks (s.a[2]) m (s.a[1]) (s.a[3]) →
    (m.rti = false ∨ (s.pair ctx.toNat).comb.tbs ≠ some size.toNat → prev = [] ∧ prevOk = false) →
    (m.rti = true → (s.pair ctx.toNat).comb.tbs = some size.toNat →
      prev = (s.pair ctx.toNat).comb.acc ∧ prevOk = (s.pair ctx.toNat).comb.ok) →
    f = fecAnswer Config.hw [soft] size → c = fecAnswer Config.hw (prev ++ [soft]) size →
    ∃ t gen, exec (.combine ctx) s = .next t ∧
      (f.ok = true → c.ok = true → gen = if Config.hw.hcTie = .fresh then .fresh else .combined) ∧
      (f.ok = true → c.ok = false → gen = .fresh) ∧ (f.ok = false → c.ok = true → gen = .combined) ∧
      (f.ok = false → c.ok = false → gen = .none) ∧
      t = { s with
        r := (s.r.set 0 (outWord (f.ok || c.ok) gen prevOk)).set 1 size
        status := if f.ok || c.ok then 0x00 else 0x11
        pairs := t.pairs, asks := s.asks + 1
        history := s.history ++
          [.dataRx (s.a[2]) m (s.a[1]) (s.a[3]) soft, .fecDec [soft] size.toNat f.payload f.ok,
           .fecDec (prev ++ [soft]) size.toNat c.payload c.ok] ++
          (if gen = .none ∨ s.a[4] = 0 then []
           else [.payloadWrite (s.a[4]) (if gen = .fresh then f.payload else c.payload)]) } ∧
      (t.pair ctx.toNat).fresh = { tbs := some size.toNat, acc := [soft], ok := f.ok } ∧
      (t.pair ctx.toNat).comb =
        (if m.rti then { tbs := some size.toNat, acc := [], ok := false }
         else { tbs := some size.toNat, acc := [soft], ok := c.ok }) ∧
      (∀ d, d ≠ ctx.toNat → t.pair d = s.pair d)

/-- COMBINE changes nothing but `R0`, `R1`, STATUS, the pair of its context and the record of the questions and
events: no other pair, no counter, no process (R172, R176). -/
def Obligations.CombineFrame : Prop :=
  ∀ (s t : State) (ctx : Byte), exec (.combine ctx) s = .next t →
    t = { s with r := t.r, status := t.status, pairs := t.pairs, asks := t.asks, history := t.history } ∧
    (∀ i : Fin 8, 2 ≤ i.val → t.r[i] = s.r[i]) ∧
    (∀ c, c ≠ ctx.toNat → t.pair c = s.pair c)

/-- Two-generation coverage: a first generation that fails alone and a second generation that decodes together with it
end `DATA_FAIL` and then `OK`, on the same context with the same size, whatever the host does in between that leaves the
pair alone. Rule R175, which says so, is marked an inference from rule R172 by the spec. -/
def Obligations.TwoGenerationCoverage : Prop :=
  ∀ (C : Config) (s u : State) (ctx : Byte) (size : Word) (soft1 soft2 : SoftVec),
    s.cfgValid = true → u.cfgValid = true → u.cfg = s.cfg → ctx.toNat < 20 →
    combineOperandsOk ctx s = true → combineOperandsOk ctx u = true →
    (msgOfWord (s.a[0])).rti = false → (msgOfWord (u.a[0])).rti = true →
    occasionTbs C s.cfg (msgOfWord (s.a[0])) = size → occasionTbs C s.cfg (msgOfWord (u.a[0])) = size →
    C.dataRx s.asks (s.a[2]) (msgOfWord (s.a[0])) (s.a[1]) (s.a[3]) = soft1 →
    C.dataRx u.asks (u.a[2]) (msgOfWord (u.a[0])) (u.a[1]) (u.a[3]) = soft2 →
    (C.fecDec [soft1] size.toNat).2 = false → (C.fecDec [soft1, soft2] size.toNat).2 = true →
    u.pair ctx.toNat = (opCombine C ctx s).pair ctx.toNat →
    (opCombine C ctx s).status = 0x11 ∧ (opCombine C ctx u).status = 0x00

/-- The tie parameter decides only the reported generation and payload: success, the mark of a previous success, the
size and the buffers do not depend on it (R173). The two sides put the same question and get the same answer (log
entry 2). -/
def Obligations.TieDecidesReportOnly : Prop :=
  ∀ (C : Config) (x y : Tie) (c : Nat) (m : SciMsg) (sid slot ce handle : Word) (s : State),
    let p := combine { C with hcTie := x } c m sid slot ce handle s
    let q := combine { C with hcTie := y } c m sid slot ce handle s
    p.success = q.success ∧ p.prevOk = q.prevOk ∧ p.tbs = q.tbs ∧ p.state.pairs = q.state.pairs ∧
      (p.success = true ↔ p.gen ≠ .none)

/-! ### HARQ entity -/

/-- An address out of range is counted, ends with `BAD_PID` and changes nothing else, for NEWGRANT and TBDECODED
(R192). -/
def Obligations.BadAddressIsCountedDrop : Prop :=
  ∀ (s : State) (pid tb : Byte) (kind : Kind) (ndiPresent ndi ack : Bool),
    s.cfgValid = true → (Config.hw.nProc < pid.toNat ∨ Config.hw.nTb ≤ tb.toNat) →
    exec (.newgrant pid tb kind ndiPresent ndi) s =
      .next { s with counters := s.counters.set 4 (s.counters[4] + 1), status := 0x30 } ∧
    exec (.tbdecoded pid tb ack) s =
      .next { s with counters := s.counters.set 4 (s.counters[4] + 1), status := 0x30 }

/-- A reserved bit of `GNTW` ends NEWGRANT with `BAD_OPERAND`, nothing else changed (R195). -/
def Obligations.NewgrantRefusesReservedBits : Prop :=
  ∀ (s : State) (pid tb : Byte) (kind : Kind) (ndiPresent ndi : Bool),
    s.cfgValid = true → pid.toNat ≤ Config.hw.nProc → tb.toNat < Config.hw.nTb → 32 ≤ (s.a[2]).toNat →
    exec (.newgrant pid tb kind ndiPresent ndi) s = .next { s with status := 0x32 }

/-- A new transmission that repeats no delivered block begins a lifecycle: a held buffer is released, a fresh one is
asked for, the soft buffer takes the new size, the counters of the sub-process are zeroed; without a buffer the grant
stays recorded and the state is `EMPTY` (R195, R197). -/
def Obligations.NewTransmissionBeginsLifecycle : Prop :=
  ∀ (s : State) (pid tb : Byte) (kind : Kind) (ndiPresent ndi : Bool) (g : Grant) (h : Word),
    GrantReady s pid tb → g = grantOfOperands kind ndiPresent ndi (s.a[0]) (s.a[1]) (s.a[2]) →
    ¬ Repeats (s.sub pid.toNat tb.toNat) g → StartsNew (s.sub pid.toNat tb.toNat) g →
    h = Config.hw.alloc s.asks ((g.tbs.toNat + 7) / 8) →
    ∃ t, exec (.newgrant pid tb kind ndiPresent ndi) s = .next t ∧
      t.sub pid.toNat tb.toNat = begunWith g h ∧
      t.status = (if h = 0 then 0x20 else 0x00) ∧
      t.r = (if h = 0 then s.r.set 0 4 else (s.r.set 0 5).set 1 h) ∧
      (∀ k, t.counter k = if k = .allocFail ∧ h = 0 then s.counter k + 1 else s.counter k) ∧
      t.history = s.history ++
        (if (s.sub pid.toNat tb.toNat).payload = 0 then [] else [.dealloc (s.sub pid.toNat tb.toNat).payload]) ++
        [.alloc ((g.tbs.toNat + 7) / 8) h]

/-- A grant that the NDI flag does not mark as new begins a lifecycle all the same in two cases. If its time-gap does
not connect to the last grant, the reset is forced and counted. If it connects but declares another size than the soft
buffer's, the reset is made to keep the buffer's size right and is not counted as a discontinuity. Either way a held
buffer is given back, a fresh one is asked for, and the soft buffer takes the new size (R194, R195, R198, R302). -/
def Obligations.DiscontinuityForcesReset : Prop :=
  ∀ (s : State) (pid tb : Byte) (kind : Kind) (ndiPresent ndi : Bool) (g l : Grant) (sp : SubProc) (h : Word),
    GrantReady s pid tb → g = grantOfOperands kind ndiPresent ndi (s.a[0]) (s.a[1]) (s.a[2]) →
    sp = s.sub pid.toNat tb.toNat → ¬ Repeats sp g → ¬ StartsNew sp g → sp.last = some l →
    h = Config.hw.alloc s.asks ((g.tbs.toNat + 7) / 8) →
    (¬ Continues sp g ∨ sp.sb.tbs ≠ some g.tbs.toNat) →
    ∃ t, exec (.newgrant pid tb kind ndiPresent ndi) s = .next t ∧
      t.sub pid.toNat tb.toNat = begunWith g h ∧
      t.status = (if h = 0 then 0x20 else 0x00) ∧
      t.r = (if h = 0 then s.r.set 0 4 else (s.r.set 0 5).set 1 h) ∧
      (∀ k, k ≠ .discont → t.counter k = if k = .allocFail ∧ h = 0 then s.counter k + 1 else s.counter k) ∧
      (¬ Continues sp g → t.counter .discont = s.counter .discont + 1) ∧
      (Continues sp g → t.counter .discont = s.counter .discont) ∧
      t.history = s.history ++ (if sp.payload = 0 then [] else [.dealloc sp.payload]) ++
        [.alloc ((g.tbs.toNat + 7) / 8) h]

/-- A related grant that asks for no new block keeps the soft buffer when its size is the declared one, and counts a
retransmission; a held payload buffer is kept, else one is asked for (R195, R197, C7). -/
def Obligations.RetransmissionKeepsLifecycle : Prop :=
  ∀ (s : State) (pid tb : Byte) (kind : Kind) (ndiPresent ndi : Bool) (g : Grant) (sp : SubProc) (h : Word),
    GrantReady s pid tb → g = grantOfOperands kind ndiPresent ndi (s.a[0]) (s.a[1]) (s.a[2]) →
    sp = s.sub pid.toNat tb.toNat → ¬ Repeats sp g → ¬ StartsNew sp g → Continues sp g →
    sp.sb.tbs = some g.tbs.toNat →
    h = (if sp.payload = 0 then Config.hw.alloc s.asks ((g.tbs.toNat + 7) / 8) else sp.payload) →
    ∃ t, exec (.newgrant pid tb kind ndiPresent ndi) s = .next t ∧
      t.sub pid.toNat tb.toNat =
        { sp with
          state := if h = 0 then sp.state else .awaitingDecode, nRetx := sp.nRetx + 1, tbs := g.tbs, last := some g
          payload := h } ∧
      t.status = (if h = 0 then 0x20 else 0x00) ∧
      t.r = (if h = 0 then s.r.set 0 0 else (s.r.set 0 1).set 1 h) ∧
      (∀ k, t.counter k = if k = .allocFail ∧ h = 0 then s.counter k + 1 else s.counter k) ∧
      t.history = s.history ++ (if sp.payload = 0 then [.alloc ((g.tbs.toNat + 7) / 8) h] else [])

/-- A grant that repeats a block already decoded is not decoded again: success is re-signalled, no buffer is asked for,
nothing is pushed, and past the bound the sub-process is reset (R195, R199, R203). The count that is compared with the
bound is the 32-bit field after its increment: that it wraps at 2^32 - 1 first is the model's reading (log entry 8), and
no rule of the spec says it. -/
def Obligations.DuplicateIsNotDecodedAgain : Prop :=
  ∀ (s : State) (pid tb : Byte) (kind : Kind) (ndiPresent ndi : Bool) (g : Grant) (sp : SubProc),
    GrantReady s pid tb → g = grantOfOperands kind ndiPresent ndi (s.a[0]) (s.a[1]) (s.a[2]) →
    sp = s.sub pid.toNat tb.toNat → Repeats sp g →
    ∃ t, exec (.newgrant pid tb kind ndiPresent ndi) s = .next t ∧
      t.r = s.r.set 0 2 ∧ t.asks = s.asks ∧ t.counter .dup = s.counter .dup + 1 ∧
      (∀ k, k ≠ .dup → k ≠ .dupReset → t.counter k = s.counter k) ∧
      (if Config.hw.dupLimit < (sp.dupCnt + 1).toNat then
        t.status = 0x41 ∧ t.counter .dupReset = s.counter .dupReset + 1 ∧
        t.sub pid.toNat tb.toNat =
          { sp with
            state := .empty, ack := false, nRetx := 0, dupCnt := 0, payload := 0
            sb := { tbs := some sp.tbs.toNat, acc := [], ok := false } } ∧
        t.history = s.history ++ (if sp.payload = 0 then [] else [.dealloc sp.payload])
       else
        t.status = 0x40 ∧ t.counter .dupReset = s.counter .dupReset ∧
        t.sub pid.toNat tb.toNat = { sp with dupCnt := sp.dupCnt + 1 } ∧ t.history = s.history)

/-- NEWGRANT changes nothing but `R0`, `R1`, STATUS, counters, the addressed sub-process and the record of questions
and events: no other sub-process, no buffer pair, no metric (R195). -/
def Obligations.NewgrantFrame : Prop :=
  ∀ (s t : State) (pid tb : Byte) (kind : Kind) (ndiPresent ndi : Bool),
    exec (.newgrant pid tb kind ndiPresent ndi) s = .next t →
    t = { s with
      r := t.r, status := t.status, counters := t.counters, procs := t.procs, asks := t.asks, history := t.history } ∧
    (∀ i : Fin 8, 2 ≤ i.val → t.r[i] = s.r[i]) ∧
    (∀ p u, (p, u) ≠ (pid.toNat, tb.toNat) → t.sub p u = s.sub p u) ∧
    (∀ k : Counter, k = .sciCrcFail ∨ k = .sciAlias ∨ k = .dataFail ∨ k = .noGrant → t.counter k = s.counter k) ∧
    pushes t.history = pushes s.history

/-- The first `DUP_LIMIT` repetitions in a row of one grant after its delivery are re-signalled, the next one forces
the reset (R199). The repeated grant is that of the operand registers, which no operation changes. -/
def Obligations.DuplicateBoundIsReached : Prop :=
  ∀ (C : Config) (s : State) (pid tb : Byte) (kind : Kind) (ndiPresent ndi : Bool) (k : Nat),
    s.cfgValid = true → pid.toNat ≤ C.nProc → tb.toNat < C.nTb → (s.a[2]).toNat < 32 →
    (s.sub pid.toNat tb.toNat).dupCnt = 0 → C.dupLimit < 2 ^ 32 - 1 →
    Repeats (s.sub pid.toNat tb.toNat) (grantOfOperands kind ndiPresent ndi (s.a[0]) (s.a[1]) (s.a[2])) →
    1 ≤ k → k ≤ C.dupLimit + 1 →
    ((opNewgrant C pid tb kind ndiPresent ndi)^[k] s).status = (if k ≤ C.dupLimit then 0x40 else 0x41) ∧
    pushes ((opNewgrant C pid tb kind ndiPresent ndi)^[k] s).history = pushes s.history ∧
    (((opNewgrant C pid tb kind ndiPresent ndi)^[k] s).sub pid.toNat tb.toNat).ack = decide (k ≤ C.dupLimit)

/-- TBDECODED delivers an awaited block exactly once on success, gives the buffer back on failure, refuses when no
decode is awaited, when the address is out of range or when nothing is configured, and changes nothing else (R200). A
sub-process that awaits a decode has a last grant, which is `g`. -/
def Obligations.TbdecodedDeliversOrDiscards : Prop :=
  ∀ (s : State) (pid tb : Byte) (sp : SubProc), sp = s.sub pid.toNat tb.toNat →
    (s.cfgValid = false → ∀ ack, exec (.tbdecoded pid tb ack) s = .next { s with status := 0x31 }) ∧
    (s.cfgValid = true → (Config.hw.nProc < pid.toNat ∨ Config.hw.nTb ≤ tb.toNat) → ∀ ack,
      exec (.tbdecoded pid tb ack) s =
        .next { s with counters := s.counters.set 4 (s.counters[4] + 1), status := 0x30 }) ∧
    (s.cfgValid = true → pid.toNat ≤ Config.hw.nProc → tb.toNat < Config.hw.nTb →
      (sp.state ≠ .awaitingDecode → ∀ ack, exec (.tbdecoded pid tb ack) s = .next { s with status := 0x32 }) ∧
      (∀ g : Grant, sp.state = .awaitingDecode → sp.last = some g →
        ∃ t, exec (.tbdecoded pid tb true) s = .next t ∧
          t = { s with
            procs := t.procs, retxSum := s.retxSum + sp.nRetx, pktCnt := s.pktCnt + 1, status := 0x00
            history := s.history ++ [.push g.kind sp.payload ((sp.tbs.toNat + 7) / 8)] } ∧
          t.sub pid.toNat tb.toNat = { sp with payload := 0, ack := true, dupCnt := 0, state := .decodedOk } ∧
          (∀ p u, (p, u) ≠ (pid.toNat, tb.toNat) → t.sub p u = s.sub p u)) ∧
      (sp.state = .awaitingDecode →
        ∃ t, exec (.tbdecoded pid tb false) s = .next t ∧
          t = { s with
            procs := t.procs, counters := s.counters.set 2 (s.counters[2] + 1), status := 0x11
            history := s.history ++ [.dealloc sp.payload] } ∧
          t.sub pid.toNat tb.toNat = { sp with payload := 0, ack := false, state := .decodedKo } ∧
          (∀ p u, (p, u) ≠ (pid.toNat, tb.toNat) → t.sub p u = s.sub p u)))

/-- Grant handling moves the addressed sub-process along the transitions that rules R194 and R195 give, and no others:
the table of rule R202, marked an inference by the spec. -/
def Obligations.NewgrantTransitions : Prop :=
  ∀ (C : Config) (s : State) (p tb : Nat) (g : Grant), p < 255 → tb < 2 →
    PayloadOwned (s.sub p tb) → SubRecords (s.sub p tb) →
    let out := newGrant C p tb g s
    let old := (s.sub p tb).state
    let new := (out.state.sub p tb).state
    (out.status = .ok ∧ out.act.decodeEnabled = true ∧ new = .awaitingDecode) ∨
    (out.status = .allocFail ∧ out.act.decodeEnabled = false ∧ out.act.sbReset = true ∧ new = .empty) ∨
    (out.status = .allocFail ∧ out.act.decodeEnabled = false ∧ out.act.sbReset = false ∧ new = old ∧
      old ≠ .awaitingDecode) ∨
    (out.status = .duplicate ∧ out.act.decodeEnabled = false ∧ new = old ∧ (old = .decodedOk ∨ old = .awaitingDecode)) ∨
    (out.status = .dupReset ∧ out.act.decodeEnabled = false ∧ new = .empty ∧ (old = .decodedOk ∨ old = .awaitingDecode))

/-! ### TxScheduler -/

/-- `smooth5` holds exactly of the positive products of powers of 2, 3 and 5 (R231). -/
def Obligations.SmoothIsProductOfPowers : Prop :=
  ∀ n : Int, smooth5 n = true ↔ ∃ a b c : Nat, n = ((2 ^ a * 3 ^ b * 5 ^ c : Nat) : Int)

/-- A first-generation BUILDGRANT takes the smallest admissible subchannel count with a sufficient MCS, and its smallest
sufficient MCS; it writes the grant, draws one start inside the pool and remembers the message; without an admissible
pair it ends `NO_GRANT`, counted (R232, R233). In a slot of another node it ends `NOT_ELIGIBLE` (R230). -/
def Obligations.BuildgrantTakesSmallestPair : Prop :=
  ∀ s : State, s.cfgValid = true → s.cfg.nSubch.toNat ≤ 20 →
    ∃ t, exec (.buildgrant false) s = .next t ∧
      (if (s.a[0]).toNat % Config.hw.nodeCount = Config.hw.nodeId then
        (∃ (len start : Nat) (mcs : BitVec 5) (m : SciMsg),
          1 ≤ len ∧ len + start ≤ s.cfg.nSubch.toNat ∧ mcs.toNat ≤ Config.hw.mcsMax ∧
          smooth5 (dataPrbs Config.hw s.cfg len) = true ∧
          (s.a[1]).toNat ≤ (Config.hw.tbs mcs (dataPrbs Config.hw s.cfg len)).toNat ∧
          (∀ (len' : Nat) (mcs' : BitVec 5), 1 ≤ len' → len' ≤ s.cfg.nSubch.toNat → mcs'.toNat ≤ Config.hw.mcsMax →
            smooth5 (dataPrbs Config.hw s.cfg len') = true →
            (s.a[1]).toNat ≤ (Config.hw.tbs mcs' (dataPrbs Config.hw s.cfg len')).toNat →
            len < len' ∨ (len = len' ∧ mcs.toNat ≤ mcs'.toNat)) ∧
          m = { prio := Config.hw.txPrio, resv := Config.hw.txResv,
                riv := BitVec.ofNat 8 (rivEncode s.cfg.nSubch.toNat len start), gap := Config.hw.txGap, mcs := mcs,
                rti := false } ∧
          t = { s with
            r := t.r, status := 0x00, txLast := some m, asks := s.asks + 1
            history := s.history ++ [.rand (s.cfg.nSubch.toNat - len + 1) start] } ∧
          t.r[0] = msgWord m ∧ t.r[2] = BitVec.ofInt 32 (dataPrbs Config.hw s.cfg len) ∧
          t.r[3] = BitVec.ofNat 32 (s.cfg.startOff.toNat + start * s.cfg.width.toNat + Config.hw.ctrlPrb) ∧
          t.r[4] = Config.hw.tbs mcs (dataPrbs Config.hw s.cfg len) ∧
          t.r[5] = descWord len start (Config.hw.qm mcs) true true ∧
          t.r[1] = s.r[1] ∧ t.r[6] = s.r[6] ∧ t.r[7] = s.r[7]) ∨
        ((∀ (len : Nat) (mcs : BitVec 5), 1 ≤ len → len ≤ s.cfg.nSubch.toNat → mcs.toNat ≤ Config.hw.mcsMax →
            smooth5 (dataPrbs Config.hw s.cfg len) = true →
            (Config.hw.tbs mcs (dataPrbs Config.hw s.cfg len)).toNat < (s.a[1]).toNat) ∧
          t = { s with counters := s.counters.set 7 (s.counters[7] + 1), status := 0x04 })
       else t = { s with status := 0x03 })

/-- A second-generation BUILDGRANT repeats the remembered message with `rti = 1` and the same allocation, which stays
remembered, draws nothing, and ends `NO_GRANT`, counted, when there is none (R232, R234). The allocation of the
remembered message is `len` subchannels from `start` on; that it has one, with at least one data PRB, is part of the
invariant (`TxLastBuilt`, `TxLastAdmissible`). -/
def Obligations.BuildgrantRepeatsRemembered : Prop :=
  ∀ s : State, s.cfgValid = true →
    ∃ t, exec (.buildgrant true) s = .next t ∧
      (if (s.a[0]).toNat % Config.hw.nodeCount = Config.hw.nodeId then
        (∀ m, s.txLast = some m →
          t = { s with r := t.r, status := 0x00 } ∧ t.r[0] = msgWord { m with rti := true } ∧
          t.r[4] = occasionTbs Config.hw s.cfg m ∧ t.r[1] = s.r[1] ∧ t.r[6] = s.r[6] ∧ t.r[7] = s.r[7]) ∧
        (∀ m len start, s.txLast = some m → 1 ≤ len → len + start ≤ s.cfg.nSubch.toNat →
          m.riv.toNat = rivEncode s.cfg.nSubch.toNat len start → 1 ≤ dataPrbs Config.hw s.cfg len →
          t.r[2] = BitVec.ofInt 32 (dataPrbs Config.hw s.cfg len) ∧
          t.r[3] = BitVec.ofNat 32 (s.cfg.startOff.toNat + start * s.cfg.width.toNat + Config.hw.ctrlPrb) ∧
          t.r[4] = Config.hw.tbs m.mcs (dataPrbs Config.hw s.cfg len) ∧
          t.r[5] = descWord len start (Config.hw.qm m.mcs) true true) ∧
        (s.txLast = none → t = { s with counters := s.counters.set 7 (s.counters[7] + 1), status := 0x04 })
       else t = { s with status := 0x03 })

/-! ### System -/

/-- The power-on state holds the value of the first column of rule R46 in every place, and no event has happened (R251).
The register `readData`, the queue `inbox` and the count `asks` are the model's own (log entries 2 and 3) and are not
stated here. -/
def Obligations.PowerOnValues : Prop :=
  (∀ i : Fin 8, State.reset.a[i] = 0) ∧ (∀ i : Fin 8, State.reset.r[i] = 0) ∧ State.reset.status = 0 ∧
  State.reset.cfgValid = false ∧ State.reset.cfg = .zero ∧ State.reset.csState = .idle ∧ State.reset.csIdx = 0 ∧
  (∀ c, State.reset.pair c = { fresh := { tbs := none, acc := [], ok := false },
                               comb := { tbs := none, acc := [], ok := false } }) ∧
  (∀ p tb, State.reset.sub p tb =
    { state := .empty, first := true, ack := false, nRetx := 0, dupCnt := 0, tbs := 0, last := none, payload := 0,
      sb := { tbs := none, acc := [], ok := false } }) ∧
  State.reset.retxSum = 0 ∧ State.reset.pktCnt = 0 ∧ (∀ k, State.reset.counter k = 0) ∧
  State.reset.txLast = none ∧ State.reset.lastTick = none ∧ State.reset.history = []

/-- RESET returns everything of rule R46's second column to its initial value, keeps the registers and the
configuration, and gives every held buffer of the existing processes back in ascending order (R250). -/
def Obligations.ResetClearsAllButConfiguration : Prop :=
  ∀ s : State, ∃ t, exec .reset s = .next t ∧
    t = { s with
      status := 0x00, csState := .idle, csIdx := 0, pairs := State.reset.pairs, procs := State.reset.procs
      retxSum := 0, pktCnt := 0, counters := State.reset.counters, txLast := none, lastTick := none
      history := t.history } ∧
    t.history = s.history ++ (List.range (Config.hw.nProc + 1)).flatMap fun p =>
      (List.range Config.hw.nTb).filterMap fun tb =>
        if (s.sub p tb).payload = 0 then none else some (.dealloc (s.sub p tb).payload)

/-- CONFIGURE replaces the whole configuration when its operands meet every range, dropping the buffer pairs and the
remembered message, and otherwise leaves everything but STATUS as it was (R252, R253). -/
def Obligations.ConfigureReplacesWhole : Prop :=
  ∀ s : State, ∃ c : PoolCfg,
    c.nSubch.toNat = (s.a[0]).toNat % 256 ∧ c.width.toNat = (s.a[0]).toNat / 256 % 256 ∧
    c.startOff.toNat = (s.a[0]).toNat / 65536 % 256 ∧ c.bitmapLen.toNat = (s.a[0]).toNat / 16777216 ∧
    c.syncPeriod.toNat = (s.a[1]).toNat % 65536 ∧ c.syncOff.toNat = (s.a[1]).toNat / 65536 ∧
    c.bitmap.length = c.bitmapLen.toNat ∧
    (∀ (k : Nat) (j : Fin 4), k < c.bitmapLen.toNat → k / 32 = j.val →
      c.bitmap[k]? = some ((s.a[j.val + 2]).getLsbD (k % 32))) ∧
    exec .configure s = .next
      (if 1 ≤ c.nSubch.toNat ∧ c.nSubch.toNat ≤ 20 ∧ 1 ≤ c.width.toNat ∧ c.width.toNat ≤ 100 ∧
          1 ≤ c.bitmapLen.toNat ∧ c.bitmapLen.toNat ≤ 100 ∧
          ((c.syncPeriod.toNat = 0 ∧ c.syncOff.toNat = 0) ∨ c.syncOff.toNat < c.syncPeriod.toNat) ∧
          c.startOff.toNat + c.nSubch.toNat * c.width.toNat ≤ Config.hw.nprbCarrier
       then { s with
          cfg := c, cfgValid := true, pairs := State.reset.pairs, txLast := none, csState := .idle, csIdx := 0
          status := 0x00 }
       else { s with status := 0x31 })

/-- WORK refuses a tick that is not above the last worked one, changing nothing else, and ends `NOT_IN_POOL` on a tick
outside the pool, having recorded the tick and asked nothing (R255). -/
def Obligations.WorkRefusesOldTicksAndSkipsOthers : Prop :=
  ∀ (s : State) (txReq txRti : Bool), s.cfgValid = true →
    (∀ l, s.lastTick = some l → (s.a[0]).toNat ≤ l.toNat →
      exec (.work txReq txRti) s = .next { s with status := 0x32 }) ∧
    ((∀ l, s.lastTick = some l → l.toNat < (s.a[0]).toNat) → slotIndex s.cfg (s.a[0]).toNat = none →
      exec (.work txReq txRti) s = .next { s with
        r := s.r.set 0 0xFFFFFFFF#32, lastTick := some (s.a[0]), status := 0x01 })

/-- WORK on a tick of the pool above the last one completes with `OK`: it records the tick, writes the ordinal and the
summary of each stage, leaves the operands and the configuration alone, and touches only the process and the buffer pair
of the message the scan finds, none without one (R254 to R258). The receive summary holds, on a hit, the status of the
grant handling if that refused the decode, else the outcome of the combination and the status of the delivery. The
transmit stage answers what `build_grant` answers, with the draw being the operation's last question (log entry 2); a
built grant goes out as the one transmit event, the last event of the operation, and its codeword into the result
registers. The scan, the grant handling and the combination are those of the state the operation starts from: `found`,
`g` and `x`. -/
def Obligations.WorkCompletesTick : Prop :=
  ∀ (s : State) (txReq txRti : Bool) (slot : Nat) (ord : Word) (found : Option Hit), s.cfgValid = true →
    (∀ l, s.lastTick = some l → l.toNat < (s.a[0]).toNat) → slotIndex s.cfg (s.a[0]).toNat = some slot →
    ord = BitVec.ofNat 32 slot → found = (scan Config.hw ord s).hit →
    ∃ t, exec (.work txReq txRti) s = .next t ∧
      t = { s with
        r := t.r, status := 0x00, csState := .idle, csIdx := 0, pairs := t.pairs, procs := t.procs
        retxSum := t.retxSum, pktCnt := t.pktCnt, counters := t.counters, txLast := t.txLast
        lastTick := some (s.a[0]), asks := t.asks, history := t.history } ∧
      t.r[0] = ord ∧
      (found = none → t.r[1] = 0x02 ∧ t.r[3] = s.r[3] ∧ t.r[5] = s.r[5] ∧ t.procs = s.procs ∧ t.pairs = s.pairs) ∧
      (∀ h pid, found = some h → pid = rxPid Config.hw ord h.msg.rti h.msg.gap →
        t.r[3] = msgWord h.msg ∧ t.r[5] = h.sid ∧ pid < Config.hw.nProc ∧
        (∀ p tb, (p, tb) ≠ (pid, 0) → t.sub p tb = s.sub p tb) ∧ (∀ c, c ≠ h.idx → t.pair c = s.pair c) ∧
        (∀ g, g = newGrant Config.hw pid 0 (rxGrant h.msg h.tbs ord) (scan Config.hw ord s).state →
          (g.act.decodeEnabled = false →
            t.r[1] = rxWord { status := g.status, pid := pid, gen := .none, prevOk := false, hit := true, idx := h.idx }) ∧
          (g.act.decodeEnabled = true → ∀ x, x = combine Config.hw h.idx h.msg h.sid ord h.ce g.handle g.state →
            t.r[1] = rxWord { status := if x.success then .ok else .dataFail, pid := pid, gen := x.gen,
                              prevOk := x.prevOk, hit := true, idx := h.idx }))) ∧
      (txReq = false → t.r[2] = 0 ∧ t.r[4] = s.r[4] ∧ t.r[6] = s.r[6] ∧ t.r[7] = s.r[7] ∧ t.txLast = s.txLast ∧
        txTicks t.history = txTicks s.history) ∧
      (∀ b, txReq = true → b = buildGrant Config.hw ord (s.a[1]) txRti { s with asks := t.asks - 1 } →
        (b.msg = none → t.r[2] = txWord b.status false ∧ t.r[4] = s.r[4] ∧ t.r[6] = s.r[6] ∧ t.r[7] = s.r[7] ∧
          t.txLast = s.txLast ∧ txTicks t.history = txTicks s.history) ∧
        (∀ m info crc, b.msg = some m → info = sciPack s.cfg.nSubch.toNat m → crc = crc16 (bitsOf 32 info.toNat) →
          t.r[2] = 0x100 ∧ t.r[4] = msgWord m ∧ t.r[6] = info ∧ t.r[7] = crc.setWidth 32 ∧
          t.txLast = b.state.txLast ∧
          ∃ before, t.history = before ++ [.txOut (s.a[0]) info crc (txRequest Config.hw s.cfg m)] ∧
            txTicks before = txTicks s.history))

/-- A WORK on a tick of the pool has the effect of the host issuing the component operations one after another, each
with the results of the one before, plus the transmit event and the tick it records. Rule R259, which says so, is marked
an inference from rule R255 by the spec. Its "with the same primitive answers" reads here: a question gets the answer of
its number and its arguments (log entry 2). -/
def Obligations.WorkIsComponentSequence : Prop :=
  ∀ (C : Config) (s : State) (txReq txRti : Bool) (k : Nat),
    ConfigLegal C s → TxLastBuilt s → s.cfgValid = true →
    (∀ l, s.lastTick = some l → l.toNat < (s.a[0]).toNat) → slotIndex s.cfg (s.a[0]).toNat = some k →
    (opWork C txReq txRti s).effect =
      (if txReq then
        hostTransmit C (s.a[0]) (BitVec.ofNat 32 k) (s.a[1]) txRti
          (hostReceive C (BitVec.ofNat 32 k) { s with lastTick := some (s.a[0]) })
       else hostReceive C (BitVec.ofNat 32 k) { s with lastTick := some (s.a[0]) }).effect

/-- The two generations of a block, `gap` slots apart, get the same process and grants of equal signature that connect;
the second asks for no new block (R191, R193, R256, R257). -/
def Obligations.GenerationsShareProcess : Prop :=
  ∀ (C : Config) (slot tbs : Word) (m : SciMsg), m.rti = false →
    let later := slot + m.gap.setWidth 32
    let m2 : SciMsg := { m with rti := true }
    rxPid C later m2.rti m2.gap = slot.toNat % C.nProc ∧ rxPid C slot m.rti m.gap = slot.toNat % C.nProc ∧
    SigEqual (rxGrant m tbs slot) (rxGrant m2 tbs later) ∧
    (rxGrant m tbs slot).ndi = true ∧ (rxGrant m2 tbs later).ndi = false

/-! ### Invariants of every step -/

/-- The invariant of the data model holds at power-on. -/
def Obligations.PowerOnMeetsInvariant : Prop := State.reset.Inv Config.hw

/-- Every step keeps the invariant of the data model: the configuration in force stays legal, the scanner idle, STATUS a
listed code, payload buffers owned exactly while a decode is awaited, sub-process records together, a last grant present
while a decode is awaited (R200), buffer pairs within their two-occasion window, the remembered message valid and with an
admissible PRB count. The readings of the sub-process states (R37, R38) are marked inferences by the spec. -/
def Obligations.EveryStepKeepsInvariant : Prop :=
  ∀ s t : State, s.Inv Config.hw → step s = .next t → t.Inv Config.hw

/-- Every step keeps the ownership rule of payload buffers, whatever else holds of the state. Rule R38, which says so, is
marked an inference by the spec. -/
def Obligations.EveryStepKeepsPayloadOwnership : Prop :=
  ∀ s t : State, PayloadsOwned s → step s = .next t → PayloadsOwned t

/-- Within a tick epoch the transmit events are in strictly increasing tick order, none later than the last worked tick:
it is so at power-on, every step but the one that runs RESET keeps it of the events from any position of the history on,
and a step that runs RESET transmits nothing and starts an epoch with no event and no worked tick. That order (R68) is
marked an inference by the spec; that it is one within an epoch is the model's reading of rules R250 and R313 (log
entry 7). -/
def Obligations.TransmitTicksIncrease : Prop :=
  EpochOrdered 0 State.reset ∧
  (∀ (s t : State) (start : Nat), start ≤ s.history.length → EpochOrdered start s →
    (∀ rest, ¬ NextCommand s (encode .reset) rest) → step s = .next t → EpochOrdered start t) ∧
  (∀ (s t : State) (rest : List HostAccess), NextCommand s (encode .reset) rest → step s = .next t →
    txTicks t.history = txTicks s.history ∧ t.lastTick = none ∧ EpochOrdered t.history.length t)

/-- Only WORK makes transmit events; RESET, CONFIGURE and the other operations make none (R258). -/
def Obligations.OnlyWorkTransmits : Prop :=
  ∀ (i : Instr) (s t : State), exec i s = .next t → (∀ txReq txRti, i ≠ .work txReq txRti) →
    txTicks t.history = txTicks s.history

/-- The event history only grows, and no step rewrites it (R45, R67). -/
def Obligations.HistoryOnlyGrows : Prop :=
  ∀ s t : State, step s = .next t → ∃ more, t.history = s.history ++ more

/-- No operation writes an operand register (R21). -/
def Obligations.OperationsKeepOperands : Prop :=
  ∀ (i : Instr) (s t : State), exec i s = .next t → t.a = s.a

/-- The configuration and its valid bit are written by CONFIGURE only (R26, R27). -/
def Obligations.OnlyConfigureWritesConfiguration : Prop :=
  ∀ (i : Instr) (s t : State), exec i s = .next t → i ≠ .configure → t.cfg = s.cfg ∧ t.cfgValid = s.cfgValid

/-- The buffer pairs are written by COMBINE, WORK, CONFIGURE and RESET only (R34), and the sub-processes by NEWGRANT,
TBDECODED, WORK and RESET only (R36). -/
def Obligations.BuffersHaveTheirWriters : Prop :=
  ∀ (i : Instr) (s t : State), exec i s = .next t →
    ((∀ c, i ≠ .combine c) → (∀ x y, i ≠ .work x y) → i ≠ .configure → i ≠ .reset → t.pairs = s.pairs) ∧
    ((∀ p tb k x y, i ≠ .newgrant p tb k x y) → (∀ p tb x, i ≠ .tbdecoded p tb x) → (∀ x y, i ≠ .work x y) →
      i ≠ .reset → t.procs = s.procs)
end

