-- ==== Sys2Proof/Laws/State.lean ====
section
/-! SUPPORT. The small lemmas of the state's named updates: one per field per update, true by rfl and tagged
@[simp], so that no proof unfolds a record update. For the two updates that may do nothing (`release`,
`writePayload`) the lemmas say which fields they keep. -/

namespace Sys2Proof.Machine

/-! ### finish -/

@[simp] theorem State.finish_a (s : State) (st : Status) : (s.finish st).a = s.a := rfl
@[simp] theorem State.finish_r (s : State) (st : Status) : (s.finish st).r = s.r := rfl
@[simp] theorem State.finish_status (s : State) (st : Status) : (s.finish st).status = st.word := rfl
@[simp] theorem State.finish_cfgValid (s : State) (st : Status) : (s.finish st).cfgValid = s.cfgValid := rfl
@[simp] theorem State.finish_cfg (s : State) (st : Status) : (s.finish st).cfg = s.cfg := rfl
@[simp] theorem State.finish_csState (s : State) (st : Status) : (s.finish st).csState = s.csState := rfl
@[simp] theorem State.finish_csIdx (s : State) (st : Status) : (s.finish st).csIdx = s.csIdx := rfl
@[simp] theorem State.finish_pairs (s : State) (st : Status) : (s.finish st).pairs = s.pairs := rfl
@[simp] theorem State.finish_procs (s : State) (st : Status) : (s.finish st).procs = s.procs := rfl
@[simp] theorem State.finish_retxSum (s : State) (st : Status) : (s.finish st).retxSum = s.retxSum := rfl
@[simp] theorem State.finish_pktCnt (s : State) (st : Status) : (s.finish st).pktCnt = s.pktCnt := rfl
@[simp] theorem State.finish_counters (s : State) (st : Status) : (s.finish st).counters = s.counters := rfl
@[simp] theorem State.finish_txLast (s : State) (st : Status) : (s.finish st).txLast = s.txLast := rfl
@[simp] theorem State.finish_lastTick (s : State) (st : Status) : (s.finish st).lastTick = s.lastTick := rfl
@[simp] theorem State.finish_inbox (s : State) (st : Status) : (s.finish st).inbox = s.inbox := rfl
@[simp] theorem State.finish_readData (s : State) (st : Status) : (s.finish st).readData = s.readData := rfl
@[simp] theorem State.finish_asks (s : State) (st : Status) : (s.finish st).asks = s.asks := rfl
@[simp] theorem State.finish_history (s : State) (st : Status) : (s.finish st).history = s.history := rfl

/-! ### setA -/

@[simp] theorem State.setA_a (s : State) (i : Fin 8) (v : Word) : (s.setA i v).a = s.a.set i v := rfl
@[simp] theorem State.setA_r (s : State) (i : Fin 8) (v : Word) : (s.setA i v).r = s.r := rfl
@[simp] theorem State.setA_status (s : State) (i : Fin 8) (v : Word) : (s.setA i v).status = s.status := rfl
@[simp] theorem State.setA_cfgValid (s : State) (i : Fin 8) (v : Word) : (s.setA i v).cfgValid = s.cfgValid := rfl
@[simp] theorem State.setA_cfg (s : State) (i : Fin 8) (v : Word) : (s.setA i v).cfg = s.cfg := rfl
@[simp] theorem State.setA_csState (s : State) (i : Fin 8) (v : Word) : (s.setA i v).csState = s.csState := rfl
@[simp] theorem State.setA_csIdx (s : State) (i : Fin 8) (v : Word) : (s.setA i v).csIdx = s.csIdx := rfl
@[simp] theorem State.setA_pairs (s : State) (i : Fin 8) (v : Word) : (s.setA i v).pairs = s.pairs := rfl
@[simp] theorem State.setA_procs (s : State) (i : Fin 8) (v : Word) : (s.setA i v).procs = s.procs := rfl
@[simp] theorem State.setA_retxSum (s : State) (i : Fin 8) (v : Word) : (s.setA i v).retxSum = s.retxSum := rfl
@[simp] theorem State.setA_pktCnt (s : State) (i : Fin 8) (v : Word) : (s.setA i v).pktCnt = s.pktCnt := rfl
@[simp] theorem State.setA_counters (s : State) (i : Fin 8) (v : Word) : (s.setA i v).counters = s.counters := rfl
@[simp] theorem State.setA_txLast (s : State) (i : Fin 8) (v : Word) : (s.setA i v).txLast = s.txLast := rfl
@[simp] theorem State.setA_lastTick (s : State) (i : Fin 8) (v : Word) : (s.setA i v).lastTick = s.lastTick := rfl
@[simp] theorem State.setA_inbox (s : State) (i : Fin 8) (v : Word) : (s.setA i v).inbox = s.inbox := rfl
@[simp] theorem State.setA_readData (s : State) (i : Fin 8) (v : Word) : (s.setA i v).readData = s.readData := rfl
@[simp] theorem State.setA_asks (s : State) (i : Fin 8) (v : Word) : (s.setA i v).asks = s.asks := rfl
@[simp] theorem State.setA_history (s : State) (i : Fin 8) (v : Word) : (s.setA i v).history = s.history := rfl

/-! ### setR -/

@[simp] theorem State.setR_a (s : State) (i : Fin 8) (v : Word) : (s.setR i v).a = s.a := rfl
@[simp] theorem State.setR_r (s : State) (i : Fin 8) (v : Word) : (s.setR i v).r = s.r.set i v := rfl
@[simp] theorem State.setR_status (s : State) (i : Fin 8) (v : Word) : (s.setR i v).status = s.status := rfl
@[simp] theorem State.setR_cfgValid (s : State) (i : Fin 8) (v : Word) : (s.setR i v).cfgValid = s.cfgValid := rfl
@[simp] theorem State.setR_cfg (s : State) (i : Fin 8) (v : Word) : (s.setR i v).cfg = s.cfg := rfl
@[simp] theorem State.setR_csState (s : State) (i : Fin 8) (v : Word) : (s.setR i v).csState = s.csState := rfl
@[simp] theorem State.setR_csIdx (s : State) (i : Fin 8) (v : Word) : (s.setR i v).csIdx = s.csIdx := rfl
@[simp] theorem State.setR_pairs (s : State) (i : Fin 8) (v : Word) : (s.setR i v).pairs = s.pairs := rfl
@[simp] theorem State.setR_procs (s : State) (i : Fin 8) (v : Word) : (s.setR i v).procs = s.procs := rfl
@[simp] theorem State.setR_retxSum (s : State) (i : Fin 8) (v : Word) : (s.setR i v).retxSum = s.retxSum := rfl
@[simp] theorem State.setR_pktCnt (s : State) (i : Fin 8) (v : Word) : (s.setR i v).pktCnt = s.pktCnt := rfl
@[simp] theorem State.setR_counters (s : State) (i : Fin 8) (v : Word) : (s.setR i v).counters = s.counters := rfl
@[simp] theorem State.setR_txLast (s : State) (i : Fin 8) (v : Word) : (s.setR i v).txLast = s.txLast := rfl
@[simp] theorem State.setR_lastTick (s : State) (i : Fin 8) (v : Word) : (s.setR i v).lastTick = s.lastTick := rfl
@[simp] theorem State.setR_inbox (s : State) (i : Fin 8) (v : Word) : (s.setR i v).inbox = s.inbox := rfl
@[simp] theorem State.setR_readData (s : State) (i : Fin 8) (v : Word) : (s.setR i v).readData = s.readData := rfl
@[simp] theorem State.setR_asks (s : State) (i : Fin 8) (v : Word) : (s.setR i v).asks = s.asks := rfl
@[simp] theorem State.setR_history (s : State) (i : Fin 8) (v : Word) : (s.setR i v).history = s.history := rfl

/-! ### count -/

@[simp] theorem State.count_a (s : State) (k : Counter) : (s.count k).a = s.a := rfl
@[simp] theorem State.count_r (s : State) (k : Counter) : (s.count k).r = s.r := rfl
@[simp] theorem State.count_status (s : State) (k : Counter) : (s.count k).status = s.status := rfl
@[simp] theorem State.count_cfgValid (s : State) (k : Counter) : (s.count k).cfgValid = s.cfgValid := rfl
@[simp] theorem State.count_cfg (s : State) (k : Counter) : (s.count k).cfg = s.cfg := rfl
@[simp] theorem State.count_csState (s : State) (k : Counter) : (s.count k).csState = s.csState := rfl
@[simp] theorem State.count_csIdx (s : State) (k : Counter) : (s.count k).csIdx = s.csIdx := rfl
@[simp] theorem State.count_pairs (s : State) (k : Counter) : (s.count k).pairs = s.pairs := rfl
@[simp] theorem State.count_procs (s : State) (k : Counter) : (s.count k).procs = s.procs := rfl
@[simp] theorem State.count_retxSum (s : State) (k : Counter) : (s.count k).retxSum = s.retxSum := rfl
@[simp] theorem State.count_pktCnt (s : State) (k : Counter) : (s.count k).pktCnt = s.pktCnt := rfl
@[simp] theorem State.count_counters (s : State) (k : Counter) : (s.count k).counters = s.counters.set k.index (s.counters[k.index] + 1) := rfl
@[simp] theorem State.count_txLast (s : State) (k : Counter) : (s.count k).txLast = s.txLast := rfl
@[simp] theorem State.count_lastTick (s : State) (k : Counter) : (s.count k).lastTick = s.lastTick := rfl
@[simp] theorem State.count_inbox (s : State) (k : Counter) : (s.count k).inbox = s.inbox := rfl
@[simp] theorem State.count_readData (s : State) (k : Counter) : (s.count k).readData = s.readData := rfl
@[simp] theorem State.count_asks (s : State) (k : Counter) : (s.count k).asks = s.asks := rfl
@[simp] theorem State.count_history (s : State) (k : Counter) : (s.count k).history = s.history := rfl

/-! ### note -/

@[simp] theorem State.note_a (s : State) (e : Event) : (s.note e).a = s.a := rfl
@[simp] theorem State.note_r (s : State) (e : Event) : (s.note e).r = s.r := rfl
@[simp] theorem State.note_status (s : State) (e : Event) : (s.note e).status = s.status := rfl
@[simp] theorem State.note_cfgValid (s : State) (e : Event) : (s.note e).cfgValid = s.cfgValid := rfl
@[simp] theorem State.note_cfg (s : State) (e : Event) : (s.note e).cfg = s.cfg := rfl
@[simp] theorem State.note_csState (s : State) (e : Event) : (s.note e).csState = s.csState := rfl
@[simp] theorem State.note_csIdx (s : State) (e : Event) : (s.note e).csIdx = s.csIdx := rfl
@[simp] theorem State.note_pairs (s : State) (e : Event) : (s.note e).pairs = s.pairs := rfl
@[simp] theorem State.note_procs (s : State) (e : Event) : (s.note e).procs = s.procs := rfl
@[simp] theorem State.note_retxSum (s : State) (e : Event) : (s.note e).retxSum = s.retxSum := rfl
@[simp] theorem State.note_pktCnt (s : State) (e : Event) : (s.note e).pktCnt = s.pktCnt := rfl
@[simp] theorem State.note_counters (s : State) (e : Event) : (s.note e).counters = s.counters := rfl
@[simp] theorem State.note_txLast (s : State) (e : Event) : (s.note e).txLast = s.txLast := rfl
@[simp] theorem State.note_lastTick (s : State) (e : Event) : (s.note e).lastTick = s.lastTick := rfl
@[simp] theorem State.note_inbox (s : State) (e : Event) : (s.note e).inbox = s.inbox := rfl
@[simp] theorem State.note_readData (s : State) (e : Event) : (s.note e).readData = s.readData := rfl
@[simp] theorem State.note_asks (s : State) (e : Event) : (s.note e).asks = s.asks := rfl
@[simp] theorem State.note_history (s : State) (e : Event) : (s.note e).history = s.history ++ [e] := rfl

/-! ### setPair -/

@[simp] theorem State.setPair_a (s : State) (c : Nat) (p : BufferPair) : (s.setPair c p).a = s.a := rfl
@[simp] theorem State.setPair_r (s : State) (c : Nat) (p : BufferPair) : (s.setPair c p).r = s.r := rfl
@[simp] theorem State.setPair_status (s : State) (c : Nat) (p : BufferPair) : (s.setPair c p).status = s.status := rfl
@[simp] theorem State.setPair_cfgValid (s : State) (c : Nat) (p : BufferPair) : (s.setPair c p).cfgValid = s.cfgValid := rfl
@[simp] theorem State.setPair_cfg (s : State) (c : Nat) (p : BufferPair) : (s.setPair c p).cfg = s.cfg := rfl
@[simp] theorem State.setPair_csState (s : State) (c : Nat) (p : BufferPair) : (s.setPair c p).csState = s.csState := rfl
@[simp] theorem State.setPair_csIdx (s : State) (c : Nat) (p : BufferPair) : (s.setPair c p).csIdx = s.csIdx := rfl
@[simp] theorem State.setPair_pairs (s : State) (c : Nat) (p : BufferPair) : (s.setPair c p).pairs = s.pairs.setIfInBounds c p := rfl
@[simp] theorem State.setPair_procs (s : State) (c : Nat) (p : BufferPair) : (s.setPair c p).procs = s.procs := rfl
@[simp] theorem State.setPair_retxSum (s : State) (c : Nat) (p : BufferPair) : (s.setPair c p).retxSum = s.retxSum := rfl
@[simp] theorem State.setPair_pktCnt (s : State) (c : Nat) (p : BufferPair) : (s.setPair c p).pktCnt = s.pktCnt := rfl
@[simp] theorem State.setPair_counters (s : State) (c : Nat) (p : BufferPair) : (s.setPair c p).counters = s.counters := rfl
@[simp] theorem State.setPair_txLast (s : State) (c : Nat) (p : BufferPair) : (s.setPair c p).txLast = s.txLast := rfl
@[simp] theorem State.setPair_lastTick (s : State) (c : Nat) (p : BufferPair) : (s.setPair c p).lastTick = s.lastTick := rfl
@[simp] theorem State.setPair_inbox (s : State) (c : Nat) (p : BufferPair) : (s.setPair c p).inbox = s.inbox := rfl
@[simp] theorem State.setPair_readData (s : State) (c : Nat) (p : BufferPair) : (s.setPair c p).readData = s.readData := rfl
@[simp] theorem State.setPair_asks (s : State) (c : Nat) (p : BufferPair) : (s.setPair c p).asks = s.asks := rfl
@[simp] theorem State.setPair_history (s : State) (c : Nat) (p : BufferPair) : (s.setPair c p).history = s.history := rfl

/-! ### setSub -/

@[simp] theorem State.setSub_a (s : State) (p tb : Nat) (sp : SubProc) : (s.setSub p tb sp).a = s.a := rfl
@[simp] theorem State.setSub_r (s : State) (p tb : Nat) (sp : SubProc) : (s.setSub p tb sp).r = s.r := rfl
@[simp] theorem State.setSub_status (s : State) (p tb : Nat) (sp : SubProc) : (s.setSub p tb sp).status = s.status := rfl
@[simp] theorem State.setSub_cfgValid (s : State) (p tb : Nat) (sp : SubProc) : (s.setSub p tb sp).cfgValid = s.cfgValid := rfl
@[simp] theorem State.setSub_cfg (s : State) (p tb : Nat) (sp : SubProc) : (s.setSub p tb sp).cfg = s.cfg := rfl
@[simp] theorem State.setSub_csState (s : State) (p tb : Nat) (sp : SubProc) : (s.setSub p tb sp).csState = s.csState := rfl
@[simp] theorem State.setSub_csIdx (s : State) (p tb : Nat) (sp : SubProc) : (s.setSub p tb sp).csIdx = s.csIdx := rfl
@[simp] theorem State.setSub_pairs (s : State) (p tb : Nat) (sp : SubProc) : (s.setSub p tb sp).pairs = s.pairs := rfl
@[simp] theorem State.setSub_retxSum (s : State) (p tb : Nat) (sp : SubProc) : (s.setSub p tb sp).retxSum = s.retxSum := rfl
@[simp] theorem State.setSub_pktCnt (s : State) (p tb : Nat) (sp : SubProc) : (s.setSub p tb sp).pktCnt = s.pktCnt := rfl
@[simp] theorem State.setSub_counters (s : State) (p tb : Nat) (sp : SubProc) : (s.setSub p tb sp).counters = s.counters := rfl
@[simp] theorem State.setSub_txLast (s : State) (p tb : Nat) (sp : SubProc) : (s.setSub p tb sp).txLast = s.txLast := rfl
@[simp] theorem State.setSub_lastTick (s : State) (p tb : Nat) (sp : SubProc) : (s.setSub p tb sp).lastTick = s.lastTick := rfl
@[simp] theorem State.setSub_inbox (s : State) (p tb : Nat) (sp : SubProc) : (s.setSub p tb sp).inbox = s.inbox := rfl
@[simp] theorem State.setSub_readData (s : State) (p tb : Nat) (sp : SubProc) : (s.setSub p tb sp).readData = s.readData := rfl
@[simp] theorem State.setSub_asks (s : State) (p tb : Nat) (sp : SubProc) : (s.setSub p tb sp).asks = s.asks := rfl
@[simp] theorem State.setSub_history (s : State) (p tb : Nat) (sp : SubProc) : (s.setSub p tb sp).history = s.history := rfl

/-! ### scannerIdle -/

@[simp] theorem State.scannerIdle_a (s : State) : (s.scannerIdle).a = s.a := rfl
@[simp] theorem State.scannerIdle_r (s : State) : (s.scannerIdle).r = s.r := rfl
@[simp] theorem State.scannerIdle_status (s : State) : (s.scannerIdle).status = s.status := rfl
@[simp] theorem State.scannerIdle_cfgValid (s : State) : (s.scannerIdle).cfgValid = s.cfgValid := rfl
@[simp] theorem State.scannerIdle_cfg (s : State) : (s.scannerIdle).cfg = s.cfg := rfl
@[simp] theorem State.scannerIdle_csState (s : State) : (s.scannerIdle).csState = .idle := rfl
@[simp] theorem State.scannerIdle_csIdx (s : State) : (s.scannerIdle).csIdx = 0 := rfl
@[simp] theorem State.scannerIdle_pairs (s : State) : (s.scannerIdle).pairs = s.pairs := rfl
@[simp] theorem State.scannerIdle_procs (s : State) : (s.scannerIdle).procs = s.procs := rfl
@[simp] theorem State.scannerIdle_retxSum (s : State) : (s.scannerIdle).retxSum = s.retxSum := rfl
@[simp] theorem State.scannerIdle_pktCnt (s : State) : (s.scannerIdle).pktCnt = s.pktCnt := rfl
@[simp] theorem State.scannerIdle_counters (s : State) : (s.scannerIdle).counters = s.counters := rfl
@[simp] theorem State.scannerIdle_txLast (s : State) : (s.scannerIdle).txLast = s.txLast := rfl
@[simp] theorem State.scannerIdle_lastTick (s : State) : (s.scannerIdle).lastTick = s.lastTick := rfl
@[simp] theorem State.scannerIdle_inbox (s : State) : (s.scannerIdle).inbox = s.inbox := rfl
@[simp] theorem State.scannerIdle_readData (s : State) : (s.scannerIdle).readData = s.readData := rfl
@[simp] theorem State.scannerIdle_asks (s : State) : (s.scannerIdle).asks = s.asks := rfl
@[simp] theorem State.scannerIdle_history (s : State) : (s.scannerIdle).history = s.history := rfl

/-! ### dropInFlight -/

@[simp] theorem State.dropInFlight_a (s : State) : (s.dropInFlight).a = s.a := rfl
@[simp] theorem State.dropInFlight_r (s : State) : (s.dropInFlight).r = s.r := rfl
@[simp] theorem State.dropInFlight_status (s : State) : (s.dropInFlight).status = s.status := rfl
@[simp] theorem State.dropInFlight_cfgValid (s : State) : (s.dropInFlight).cfgValid = s.cfgValid := rfl
@[simp] theorem State.dropInFlight_cfg (s : State) : (s.dropInFlight).cfg = s.cfg := rfl
@[simp] theorem State.dropInFlight_csState (s : State) : (s.dropInFlight).csState = .idle := rfl
@[simp] theorem State.dropInFlight_csIdx (s : State) : (s.dropInFlight).csIdx = 0 := rfl
@[simp] theorem State.dropInFlight_pairs (s : State) : (s.dropInFlight).pairs = Vector.replicate 20 .empty := rfl
@[simp] theorem State.dropInFlight_procs (s : State) : (s.dropInFlight).procs = s.procs := rfl
@[simp] theorem State.dropInFlight_retxSum (s : State) : (s.dropInFlight).retxSum = s.retxSum := rfl
@[simp] theorem State.dropInFlight_pktCnt (s : State) : (s.dropInFlight).pktCnt = s.pktCnt := rfl
@[simp] theorem State.dropInFlight_counters (s : State) : (s.dropInFlight).counters = s.counters := rfl
@[simp] theorem State.dropInFlight_txLast (s : State) : (s.dropInFlight).txLast = none := rfl
@[simp] theorem State.dropInFlight_lastTick (s : State) : (s.dropInFlight).lastTick = s.lastTick := rfl
@[simp] theorem State.dropInFlight_inbox (s : State) : (s.dropInFlight).inbox = s.inbox := rfl
@[simp] theorem State.dropInFlight_readData (s : State) : (s.dropInFlight).readData = s.readData := rfl
@[simp] theorem State.dropInFlight_asks (s : State) : (s.dropInFlight).asks = s.asks := rfl
@[simp] theorem State.dropInFlight_history (s : State) : (s.dropInFlight).history = s.history := rfl

/-! ### illegalCommand -/

@[simp] theorem State.illegalCommand_a (s : State) : (s.illegalCommand).a = s.a := rfl
@[simp] theorem State.illegalCommand_r (s : State) : (s.illegalCommand).r = s.r := rfl
@[simp] theorem State.illegalCommand_status (s : State) : (s.illegalCommand).status = Status.illegalCmd.word := rfl
@[simp] theorem State.illegalCommand_cfgValid (s : State) : (s.illegalCommand).cfgValid = s.cfgValid := rfl
@[simp] theorem State.illegalCommand_cfg (s : State) : (s.illegalCommand).cfg = s.cfg := rfl
@[simp] theorem State.illegalCommand_csState (s : State) : (s.illegalCommand).csState = s.csState := rfl
@[simp] theorem State.illegalCommand_csIdx (s : State) : (s.illegalCommand).csIdx = s.csIdx := rfl
@[simp] theorem State.illegalCommand_pairs (s : State) : (s.illegalCommand).pairs = s.pairs := rfl
@[simp] theorem State.illegalCommand_procs (s : State) : (s.illegalCommand).procs = s.procs := rfl
@[simp] theorem State.illegalCommand_retxSum (s : State) : (s.illegalCommand).retxSum = s.retxSum := rfl
@[simp] theorem State.illegalCommand_pktCnt (s : State) : (s.illegalCommand).pktCnt = s.pktCnt := rfl
@[simp] theorem State.illegalCommand_counters (s : State) : (s.illegalCommand).counters = s.counters := rfl
@[simp] theorem State.illegalCommand_txLast (s : State) : (s.illegalCommand).txLast = s.txLast := rfl
@[simp] theorem State.illegalCommand_lastTick (s : State) : (s.illegalCommand).lastTick = s.lastTick := rfl
@[simp] theorem State.illegalCommand_inbox (s : State) : (s.illegalCommand).inbox = s.inbox := rfl
@[simp] theorem State.illegalCommand_readData (s : State) : (s.illegalCommand).readData = s.readData := rfl
@[simp] theorem State.illegalCommand_asks (s : State) : (s.illegalCommand).asks = s.asks := rfl
@[simp] theorem State.illegalCommand_history (s : State) : (s.illegalCommand).history = s.history := rfl

/-! ### hostRead -/

@[simp] theorem State.hostRead_a (s : State) (i : Nat) : (s.hostRead i).a = s.a := rfl
@[simp] theorem State.hostRead_r (s : State) (i : Nat) : (s.hostRead i).r = s.r := rfl
@[simp] theorem State.hostRead_status (s : State) (i : Nat) : (s.hostRead i).status = s.status := rfl
@[simp] theorem State.hostRead_cfgValid (s : State) (i : Nat) : (s.hostRead i).cfgValid = s.cfgValid := rfl
@[simp] theorem State.hostRead_cfg (s : State) (i : Nat) : (s.hostRead i).cfg = s.cfg := rfl
@[simp] theorem State.hostRead_csState (s : State) (i : Nat) : (s.hostRead i).csState = s.csState := rfl
@[simp] theorem State.hostRead_csIdx (s : State) (i : Nat) : (s.hostRead i).csIdx = s.csIdx := rfl
@[simp] theorem State.hostRead_pairs (s : State) (i : Nat) : (s.hostRead i).pairs = s.pairs := rfl
@[simp] theorem State.hostRead_procs (s : State) (i : Nat) : (s.hostRead i).procs = s.procs := rfl
@[simp] theorem State.hostRead_retxSum (s : State) (i : Nat) : (s.hostRead i).retxSum = s.retxSum := rfl
@[simp] theorem State.hostRead_pktCnt (s : State) (i : Nat) : (s.hostRead i).pktCnt = s.pktCnt := rfl
@[simp] theorem State.hostRead_counters (s : State) (i : Nat) : (s.hostRead i).counters = s.counters := rfl
@[simp] theorem State.hostRead_txLast (s : State) (i : Nat) : (s.hostRead i).txLast = s.txLast := rfl
@[simp] theorem State.hostRead_lastTick (s : State) (i : Nat) : (s.hostRead i).lastTick = s.lastTick := rfl
@[simp] theorem State.hostRead_inbox (s : State) (i : Nat) : (s.hostRead i).inbox = s.inbox := rfl
@[simp] theorem State.hostRead_readData (s : State) (i : Nat) : (s.hostRead i).readData = some (s.readReg i) := rfl
@[simp] theorem State.hostRead_asks (s : State) (i : Nat) : (s.hostRead i).asks = s.asks := rfl
@[simp] theorem State.hostRead_history (s : State) (i : Nat) : (s.hostRead i).history = s.history := rfl

/-! ### release -/

@[simp] theorem State.release_a (s : State) (h : Word) : (s.release h).a = s.a := by unfold State.release; split <;> rfl
@[simp] theorem State.release_r (s : State) (h : Word) : (s.release h).r = s.r := by unfold State.release; split <;> rfl
@[simp] theorem State.release_status (s : State) (h : Word) : (s.release h).status = s.status := by unfold State.release; split <;> rfl
@[simp] theorem State.release_cfgValid (s : State) (h : Word) : (s.release h).cfgValid = s.cfgValid := by unfold State.release; split <;> rfl
@[simp] theorem State.release_cfg (s : State) (h : Word) : (s.release h).cfg = s.cfg := by unfold State.release; split <;> rfl
@[simp] theorem State.release_csState (s : State) (h : Word) : (s.release h).csState = s.csState := by unfold State.release; split <;> rfl
@[simp] theorem State.release_csIdx (s : State) (h : Word) : (s.release h).csIdx = s.csIdx := by unfold State.release; split <;> rfl
@[simp] theorem State.release_pairs (s : State) (h : Word) : (s.release h).pairs = s.pairs := by unfold State.release; split <;> rfl
@[simp] theorem State.release_procs (s : State) (h : Word) : (s.release h).procs = s.procs := by unfold State.release; split <;> rfl
@[simp] theorem State.release_retxSum (s : State) (h : Word) : (s.release h).retxSum = s.retxSum := by unfold State.release; split <;> rfl
@[simp] theorem State.release_pktCnt (s : State) (h : Word) : (s.release h).pktCnt = s.pktCnt := by unfold State.release; split <;> rfl
@[simp] theorem State.release_counters (s : State) (h : Word) : (s.release h).counters = s.counters := by unfold State.release; split <;> rfl
@[simp] theorem State.release_txLast (s : State) (h : Word) : (s.release h).txLast = s.txLast := by unfold State.release; split <;> rfl
@[simp] theorem State.release_lastTick (s : State) (h : Word) : (s.release h).lastTick = s.lastTick := by unfold State.release; split <;> rfl
@[simp] theorem State.release_inbox (s : State) (h : Word) : (s.release h).inbox = s.inbox := by unfold State.release; split <;> rfl
@[simp] theorem State.release_readData (s : State) (h : Word) : (s.release h).readData = s.readData := by unfold State.release; split <;> rfl
@[simp] theorem State.release_asks (s : State) (h : Word) : (s.release h).asks = s.asks := by unfold State.release; split <;> rfl

/-! ### writePayload -/

@[simp] theorem State.writePayload_a (s : State) (x : Attempts) (g : Gen) (h : Word) : (s.writePayload x g h).a = s.a := by unfold State.writePayload; split <;> [rfl; split <;> rfl]
@[simp] theorem State.writePayload_r (s : State) (x : Attempts) (g : Gen) (h : Word) : (s.writePayload x g h).r = s.r := by unfold State.writePayload; split <;> [rfl; split <;> rfl]
@[simp] theorem State.writePayload_status (s : State) (x : Attempts) (g : Gen) (h : Word) : (s.writePayload x g h).status = s.status := by unfold State.writePayload; split <;> [rfl; split <;> rfl]
@[simp] theorem State.writePayload_cfgValid (s : State) (x : Attempts) (g : Gen) (h : Word) : (s.writePayload x g h).cfgValid = s.cfgValid := by unfold State.writePayload; split <;> [rfl; split <;> rfl]
@[simp] theorem State.writePayload_cfg (s : State) (x : Attempts) (g : Gen) (h : Word) : (s.writePayload x g h).cfg = s.cfg := by unfold State.writePayload; split <;> [rfl; split <;> rfl]
@[simp] theorem State.writePayload_csState (s : State) (x : Attempts) (g : Gen) (h : Word) : (s.writePayload x g h).csState = s.csState := by unfold State.writePayload; split <;> [rfl; split <;> rfl]
@[simp] theorem State.writePayload_csIdx (s : State) (x : Attempts) (g : Gen) (h : Word) : (s.writePayload x g h).csIdx = s.csIdx := by unfold State.writePayload; split <;> [rfl; split <;> rfl]
@[simp] theorem State.writePayload_pairs (s : State) (x : Attempts) (g : Gen) (h : Word) : (s.writePayload x g h).pairs = s.pairs := by unfold State.writePayload; split <;> [rfl; split <;> rfl]
@[simp] theorem State.writePayload_procs (s : State) (x : Attempts) (g : Gen) (h : Word) : (s.writePayload x g h).procs = s.procs := by unfold State.writePayload; split <;> [rfl; split <;> rfl]
@[simp] theorem State.writePayload_retxSum (s : State) (x : Attempts) (g : Gen) (h : Word) : (s.writePayload x g h).retxSum = s.retxSum := by unfold State.writePayload; split <;> [rfl; split <;> rfl]
@[simp] theorem State.writePayload_pktCnt (s : State) (x : Attempts) (g : Gen) (h : Word) : (s.writePayload x g h).pktCnt = s.pktCnt := by unfold State.writePayload; split <;> [rfl; split <;> rfl]
@[simp] theorem State.writePayload_counters (s : State) (x : Attempts) (g : Gen) (h : Word) : (s.writePayload x g h).counters = s.counters := by unfold State.writePayload; split <;> [rfl; split <;> rfl]
@[simp] theorem State.writePayload_txLast (s : State) (x : Attempts) (g : Gen) (h : Word) : (s.writePayload x g h).txLast = s.txLast := by unfold State.writePayload; split <;> [rfl; split <;> rfl]
@[simp] theorem State.writePayload_lastTick (s : State) (x : Attempts) (g : Gen) (h : Word) : (s.writePayload x g h).lastTick = s.lastTick := by unfold State.writePayload; split <;> [rfl; split <;> rfl]
@[simp] theorem State.writePayload_inbox (s : State) (x : Attempts) (g : Gen) (h : Word) : (s.writePayload x g h).inbox = s.inbox := by unfold State.writePayload; split <;> [rfl; split <;> rfl]
@[simp] theorem State.writePayload_readData (s : State) (x : Attempts) (g : Gen) (h : Word) : (s.writePayload x g h).readData = s.readData := by unfold State.writePayload; split <;> [rfl; split <;> rfl]
@[simp] theorem State.writePayload_asks (s : State) (x : Attempts) (g : Gen) (h : Word) : (s.writePayload x g h).asks = s.asks := by unfold State.writePayload; split <;> [rfl; split <;> rfl]

end Sys2Proof.Machine
end

