-- ==== Sys2Proof/Laws/Ops.lean ====
section
/-! SUPPORT. What the shared operations over the state do, said once: reading back what was written, and that a write
leaves every other place alone. -/

namespace Sys2Proof.Machine

/-! ### The configuration gate -/

theorem State.whenConfigured_of_valid {s : State} (h : s.cfgValid = true) (go : State → State) :
    s.whenConfigured go = go s := by simp [State.whenConfigured, h]

theorem State.whenConfigured_of_invalid {s : State} (h : s.cfgValid = false) (go : State → State) :
    s.whenConfigured go = s.finish .cfgInvalid := by simp [State.whenConfigured, h]

/-- Everything a gated operation can do: nothing but the status, or what its body does. -/
theorem State.whenConfigured_cases (s : State) (go : State → State) :
    (s.cfgValid = false ∧ s.whenConfigured go = s.finish .cfgInvalid) ∨
    (s.cfgValid = true ∧ s.whenConfigured go = go s) := by
  cases h : s.cfgValid <;> simp [State.whenConfigured, h]

/-! ### Result registers -/

@[simp] theorem State.setR_self (s : State) (i : Fin 8) (v : Word) : (s.setR i v).r[i] = v := by simp

theorem State.setR_other (s : State) {i j : Fin 8} (v : Word) (h : i ≠ j) : (s.setR i v).r[j] = s.r[j] := by
  have : i.val ≠ j.val := fun e => h (Fin.ext e)
  simp [this]

/-! ### Counters -/

@[simp] theorem State.finish_counter (s : State) (st : Status) (k : Counter) : (s.finish st).counter k = s.counter k :=
  rfl

@[simp] theorem State.count_counter_self (s : State) (k : Counter) : (s.count k).counter k = s.counter k + 1 := by
  simp [State.counter]

theorem Counter.index_ne {k j : Counter} (h : k ≠ j) : k.index.val ≠ j.index.val := by
  cases k <;> cases j <;> simp_all [Counter.index]

theorem State.count_counter_other (s : State) {k j : Counter} (h : k ≠ j) : (s.count k).counter j = s.counter j := by
  simp [State.counter, Counter.index_ne h]

/-! ### Buffer pairs -/

theorem State.pair_setPair_self (s : State) {c : Nat} (h : c < 20) (p : BufferPair) : (s.setPair c p).pair c = p := by
  simp [State.pair, h]

theorem State.pair_setPair_other (s : State) {c d : Nat} (p : BufferPair) (h : c ≠ d) :
    (s.setPair c p).pair d = s.pair d := by
  simp [State.pair, h]

/-- A pair outside the array reads as empty and takes no write. -/
theorem State.pair_of_ge (s : State) {c : Nat} (h : 20 ≤ c) : s.pair c = .empty := by
  simp [State.pair, h]

@[simp] theorem State.setSub_pair (s : State) (p tb : Nat) (sp : SubProc) (c : Nat) :
    (s.setSub p tb sp).pair c = s.pair c := rfl
@[simp] theorem State.note_pair (s : State) (e : Event) (c : Nat) : (s.note e).pair c = s.pair c := rfl
@[simp] theorem State.count_pair (s : State) (k : Counter) (c : Nat) : (s.count k).pair c = s.pair c := rfl
@[simp] theorem State.finish_pair (s : State) (st : Status) (c : Nat) : (s.finish st).pair c = s.pair c := rfl
@[simp] theorem State.setR_pair (s : State) (i : Fin 8) (v : Word) (c : Nat) : (s.setR i v).pair c = s.pair c := rfl

/-! ### Sub-processes -/

@[simp] theorem State.setSub_procs (s : State) (p tb : Nat) (sp : SubProc) :
    (s.setSub p tb sp).procs = s.procs.setIfInBounds p
      ((s.procs[p]?.getD (Vector.replicate 2 .reset)).setIfInBounds tb sp) := rfl

theorem State.sub_setSub_self (s : State) {p tb : Nat} (hp : p < 255) (ht : tb < 2) (sp : SubProc) :
    (s.setSub p tb sp).sub p tb = sp := by
  simp [State.sub, hp, ht]

theorem State.sub_setSub_other (s : State) {p tb q ub : Nat} (sp : SubProc) (h : (p, tb) ≠ (q, ub)) :
    (s.setSub p tb sp).sub q ub = s.sub q ub := by
  by_cases hpq : p = q
  · subst hpq
    have htb : tb ≠ ub := fun e => h (by rw [e])
    by_cases hp : p < 255
    · simp [State.sub, hp, htb]
    · simp [State.sub, hp]
  · simp [State.sub, hpq]

/-- A sub-process outside the array reads as reset. -/
theorem State.sub_of_ge (s : State) {p tb : Nat} (h : 255 ≤ p ∨ 2 ≤ tb) : s.sub p tb = .reset := by
  rcases h with h | h
  · by_cases ht : tb < 2
    · simp [State.sub, h, ht]
    · simp [State.sub, h, ht]
  · rw [State.sub, Vector.getElem?_eq_none h]
    rfl

/-- Reading any sub-process after a write: the written one where the write landed, else the old one. -/
theorem State.sub_setSub (s : State) (p tb : Nat) (sp : SubProc) (q ub : Nat) :
    (s.setSub p tb sp).sub q ub = sp ∨ (s.setSub p tb sp).sub q ub = s.sub q ub := by
  by_cases h : (p, tb) = (q, ub)
  · cases h
    by_cases hb : p < 255 ∧ tb < 2
    · exact .inl (s.sub_setSub_self hb.1 hb.2 sp)
    · right
      rw [State.sub_of_ge _ (by omega), State.sub_of_ge _ (by omega)]
  · exact .inr (s.sub_setSub_other sp h)

@[simp] theorem State.finish_sub (s : State) (st : Status) (p tb : Nat) : (s.finish st).sub p tb = s.sub p tb := rfl
@[simp] theorem State.setR_sub (s : State) (i : Fin 8) (v : Word) (p tb : Nat) : (s.setR i v).sub p tb = s.sub p tb := rfl
@[simp] theorem State.count_sub (s : State) (k : Counter) (p tb : Nat) : (s.count k).sub p tb = s.sub p tb := rfl
@[simp] theorem State.note_sub (s : State) (e : Event) (p tb : Nat) : (s.note e).sub p tb = s.sub p tb := rfl
@[simp] theorem State.setPair_sub (s : State) (c : Nat) (x : BufferPair) (p tb : Nat) :
    (s.setPair c x).sub p tb = s.sub p tb := rfl
@[simp] theorem State.release_sub (s : State) (h : Word) (p tb : Nat) : (s.release h).sub p tb = s.sub p tb := by
  simp [State.sub]
@[simp] theorem State.release_counter (s : State) (h : Word) (k : Counter) : (s.release h).counter k = s.counter k := by
  simp [State.counter]

/-- An in-range address lies inside the arrays (R9, R192). -/
theorem addressInRange_bounds {C : Config} {p tb : Nat} (h : addressInRange C p tb = true) : p < 255 ∧ tb < 2 := by
  simp only [addressInRange, Bool.and_eq_true, decide_eq_true_eq] at h
  simp only [Params.nProc, Params.nTb] at h
  have h1 := C.nProcPred.isLt
  have h2 := C.nTbPred.isLt
  omega

/-! ### Questions to the external primitives: each counts one question and records one entry -/

@[simp] theorem askCtrlRx_answer (C : Config) (s : State) (slot : Word) (i : Nat) :
    (askCtrlRx C s slot i).1 = C.ctrlRx s.asks slot i := rfl
theorem askCtrlRx_state (C : Config) (s : State) (slot : Word) (i : Nat) :
    (askCtrlRx C s slot i).2 =
      { s with asks := s.asks + 1, history := s.history ++ [.ctrlRx slot i (C.ctrlRx s.asks slot i)] } := rfl
@[simp] theorem askDataRx_answer (C : Config) (s : State) (slot : Word) (m : SciMsg) (sid ce : Word) :
    (askDataRx C s slot m sid ce).1 = C.dataRx s.asks slot m sid ce := rfl
theorem askDataRx_state (C : Config) (s : State) (slot : Word) (m : SciMsg) (sid ce : Word) :
    (askDataRx C s slot m sid ce).2 =
      { s with
        asks := s.asks + 1
        history := s.history ++ [.dataRx slot m sid ce (C.dataRx s.asks slot m sid ce)] } := rfl
@[simp] theorem askAlloc_answer (C : Config) (s : State) (n : Nat) : (askAlloc C s n).1 = C.alloc s.asks n := rfl
theorem askAlloc_state (C : Config) (s : State) (n : Nat) :
    (askAlloc C s n).2 =
      { s with asks := s.asks + 1, history := s.history ++ [.alloc n (C.alloc s.asks n)] } := rfl
@[simp] theorem askRand_answer (C : Config) (s : State) (k : Nat) : (askRand C s k).1 = (C.rand s.asks k).val := rfl
theorem askRand_state (C : Config) (s : State) (k : Nat) :
    (askRand C s k).2 =
      { s with asks := s.asks + 1, history := s.history ++ [.rand (k + 1) (C.rand s.asks k).val] } := rfl
/-- `Rand(k + 1)` answers in `0..k` (R13, R233). -/
theorem askRand_le (C : Config) (s : State) (k : Nat) : (askRand C s k).1 ≤ k :=
  Nat.lt_succ_iff.mp (C.rand s.asks k).isLt

/-- `Dealloc` of a handle: one event when a buffer is held, nothing else (R194). -/
theorem State.release_cases (s : State) (h : Word) :
    (h = 0 ∧ s.release h = s) ∨ (h ≠ 0 ∧ s.release h = s.note (.dealloc h)) := by
  unfold State.release
  by_cases e : h = 0
  · exact .inl ⟨e, if_pos e⟩
  · exact .inr ⟨e, if_neg e⟩

/-! ### Reset values -/

@[simp] theorem State.reset_sub (p tb : Nat) : State.reset.sub p tb = .reset := by
  by_cases hp : p < 255 <;> by_cases ht : tb < 2 <;> simp [State.reset, State.sub, hp, ht]

@[simp] theorem State.reset_pair (c : Nat) : State.reset.pair c = .empty := by
  by_cases hc : c < 20 <;> simp [State.reset, State.pair, hc]

end Sys2Proof.Machine
end

