-- ==== Sys2Proof/Laws/Codec.lean ====
section
/-! SUPPORT. Laws of the bit-sequence notation (spec/00_scope.md rule R11), of the register image of a message
(spec/30_encoding.md rule R84) and of the resource indication value's field width (spec/40_resource_pool.md rule
R115). -/

namespace Sys2Proof.Machine

/-! ### Bit sequences -/

@[simp] theorem length_bitsOf (n v : Nat) : (bitsOf n v).length = n := by simp [bitsOf]

theorem foldl_val (bits : List Bool) (acc : Nat) :
    bits.foldl (fun acc b => 2 * acc + b.toNat) acc = acc * 2 ^ bits.length + valOf bits := by
  unfold valOf
  induction bits generalizing acc with
  | nil => simp
  | cons b bs ih =>
    rw [List.foldl_cons, ih, List.foldl_cons, ih (2 * 0 + b.toNat), List.length_cons, Nat.pow_succ]
    ring

@[simp] theorem valOf_nil : valOf [] = 0 := rfl

theorem valOf_cons (b : Bool) (bs : List Bool) : valOf (b :: bs) = b.toNat * 2 ^ bs.length + valOf bs := by
  have := foldl_val bs b.toNat
  simpa [valOf] using this

theorem valOf_append (xs ys : List Bool) : valOf (xs ++ ys) = valOf xs * 2 ^ ys.length + valOf ys := by
  have := foldl_val ys (valOf xs)
  rw [← this, valOf, List.foldl_append]
  rfl

theorem valOf_lt (bits : List Bool) : valOf bits < 2 ^ bits.length := by
  induction bits with
  | nil => simp
  | cons b bs ih =>
    rw [valOf_cons, List.length_cons, Nat.pow_succ]
    cases b <;> simp <;> omega

/-- The bits of a number, one more at the front. -/
theorem bitsOf_succ (n v : Nat) : bitsOf (n + 1) v = v.testBit n :: bitsOf n v := by
  simp only [bitsOf, List.range_succ_eq_map, List.map_cons, List.map_map, List.cons.injEq]
  refine ⟨by simp, List.map_congr_left fun i hi => ?_⟩
  simp [Function.comp, Nat.sub_sub, Nat.add_comm]

/-- `val` undoes `bits_n` up to the width (R11). -/
@[simp] theorem valOf_bitsOf (n v : Nat) : valOf (bitsOf n v) = v % 2 ^ n := by
  induction n with
  | zero => simp [bitsOf, Nat.mod_one]
  | succ n ih =>
    rw [bitsOf_succ, valOf_cons, ih, length_bitsOf, Nat.testBit_eq_decide_div_mod_eq, Nat.pow_succ, Nat.mod_mul]
    rcases Nat.mod_two_eq_zero_or_one (v / 2 ^ n) with h | h <;> simp [h, Nat.add_comm]

/-- `bits_n` undoes `val` (R11). -/
theorem bitsOf_valOf (bits : List Bool) : bitsOf bits.length (valOf bits) = bits := by
  induction bits with
  | nil => rfl
  | cons b bs ih =>
    have h : ∀ i, i < bs.length → (valOf (b :: bs)).testBit i = (valOf bs).testBit i := by
      intro i hi
      rw [valOf_cons, Nat.mul_comm, Nat.testBit_two_pow_mul_add _ (valOf_lt bs), if_pos hi]
    rw [List.length_cons, bitsOf_succ]
    congr 1
    · rw [valOf_cons, Nat.mul_comm, Nat.testBit_two_pow_mul_add _ (valOf_lt bs)]
      cases b <;> simp
    · refine Eq.trans ?_ ih
      unfold bitsOf
      refine List.map_congr_left fun i hi => ?_
      rw [List.mem_range] at hi
      exact h _ (by omega)

/-! ### The image of a message -/

/-- Reading a message back from its word (R84). -/
@[simp] theorem msgOfWord_msgWord (m : SciMsg) : msgOfWord (msgWord m) = m := by
  cases m with
  | mk prio resv riv gap mcs rti =>
    simp only [msgOfWord, msgWord, SciMsg.mk.injEq]
    refine ⟨?_, ?_, ?_, ?_, ?_, ?_⟩
    all_goals first
      | (apply BitVec.eq_of_getLsbD_eq
         intro i hi
         simp only [BitVec.getLsbD_extractLsb', BitVec.getLsbD_append]
         interval_cases i <;> simp)
      | (simp only [BitVec.getLsbD_append]; simp)

/-- A word the block writes for a message has zero reserved bits (R84). -/
@[simp] theorem msgReservedZero_msgWord (m : SciMsg) : msgReservedZero (msgWord m) = true := by
  simp only [msgReservedZero, msgWord, beq_iff_eq]
  apply BitVec.eq_of_getLsbD_eq
  intro i hi
  simp only [BitVec.getLsbD_extractLsb', BitVec.getLsbD_append]
  interval_cases i <;> simp

/-- Reserved bits of `MSGW` are zero exactly below 2^25. -/
theorem msgReservedZero_iff (w : Word) : msgReservedZero w = true ↔ w.toNat < 2 ^ 25 := by
  simp only [msgReservedZero, beq_iff_eq]
  constructor
  · intro h
    have := congrArg BitVec.toNat h
    simp [Nat.shiftRight_eq_div_pow] at this
    have := w.isLt
    omega
  · intro h
    apply BitVec.eq_of_toNat_eq
    simp [Nat.shiftRight_eq_div_pow]
    omega

/-- Reserved bits of `GNTW` are zero exactly below 2^5. -/
theorem gntReservedZero_iff (w : Word) : gntReservedZero w = true ↔ w.toNat < 32 := by
  simp only [gntReservedZero, beq_iff_eq]
  constructor
  · intro h
    have := congrArg BitVec.toNat h
    simp [Nat.shiftRight_eq_div_pow] at this
    have := w.isLt
    omega
  · intro h
    apply BitVec.eq_of_toNat_eq
    simp [Nat.shiftRight_eq_div_pow]
    omega

/-- Reserved bits of a checksum operand are zero exactly below 2^16. -/
theorem parityReservedZero_iff (w : Word) : parityReservedZero w = true ↔ w.toNat < 2 ^ 16 := by
  simp only [parityReservedZero, beq_iff_eq]
  constructor
  · intro h
    have := congrArg BitVec.toNat h
    simp [Nat.shiftRight_eq_div_pow] at this
    have := w.isLt
    omega
  · intro h
    apply BitVec.eq_of_toNat_eq
    simp [Nat.shiftRight_eq_div_pow]
    omega

@[simp] theorem parityOf_crcWord (crc : BitVec 16) : parityOf (crcWord crc) = crc := by
  apply BitVec.eq_of_getLsbD_eq
  intro i hi
  simp only [parityOf, crcWord, BitVec.getLsbD_extractLsb', BitVec.getLsbD_append]
  simp [hi]

@[simp] theorem parityReservedZero_crcWord (crc : BitVec 16) : parityReservedZero (crcWord crc) = true := by
  rw [parityReservedZero_iff, crcWord, BitVec.toNat_append]
  simpa using crc.isLt

/-! ### The resource indication value -/

theorem ceilLog2From_spec (x : Nat) (fuel w : Nat) (h : x ≤ 2 ^ (w + fuel)) : x ≤ 2 ^ ceilLog2From fuel w x := by
  induction fuel generalizing w with
  | zero => simpa [ceilLog2From] using h
  | succ n ih =>
    unfold ceilLog2From
    split
    · assumption
    · exact ih (w + 1) (by rwa [Nat.add_assoc, Nat.add_comm 1])

/-- The power of two that `ceil_log2` names reaches the number (R11). -/
theorem le_two_pow_ceilLog2 (x : Nat) : x ≤ 2 ^ ceilLog2 x :=
  ceilLog2From_spec x x 0 (by simpa using Nat.lt_two_pow_self.le)

/-- The width of the `riv` field is at most 8 for every legal subchannel count (R115). -/
theorem rivBits_le (n : Nat) (h : n ≤ 20) : rivBits n ≤ 8 := by
  interval_cases n <;> decide +kernel

/-- A valid value is below `n (n + 1) / 2`, so it fits its field (R115 to R117). -/
theorem rivEncode_lt (n len s : Nat) (hl : 1 ≤ len) (h : len + s ≤ n) : rivEncode n len s < n * (n + 1) / 2 := by
  have key : 2 * rivEncode n len s + 2 ≤ n * (n + 1) := by
    obtain ⟨k, rfl⟩ : ∃ k, len = k + 1 := ⟨len - 1, by omega⟩
    unfold rivEncode
    split
    · rename_i hk
      simp only [Nat.add_sub_cancel] at hk ⊢
      have h1 : 2 * k ≤ n := by omega
      obtain ⟨d, rfl⟩ : ∃ d, n = 2 * k + d := ⟨n - 2 * k, by omega⟩
      have : s + 1 ≤ k + d := by omega
      nlinarith
    · rename_i hk
      simp only [Nat.add_sub_cancel] at hk
      obtain ⟨j, rfl⟩ : ∃ j, n = k + 1 + s + j := ⟨n - (k + 1 + s), by omega⟩
      have e1 : k + 1 + s + j - (k + 1) + 1 = s + j + 1 := by omega
      have e2 : k + 1 + s + j - 1 - s = k + j := by omega
      rw [e1, e2]
      have : s + j + 2 ≤ k := by omega
      nlinarith
  omega

end Sys2Proof.Machine
end

