-- ==== Sys2Proof/Laws/PerInstr.lean ====
section
/-! SUPPORT. The family of statements made once per operation: its command word selects its own row of the opcode map
and no other (spec/30_encoding.md rule R86, "The rows are pairwise disjoint because the opcodes differ"). -/

namespace Sys2Proof.Laws.SelectsOwnRow

/-- The command word of the operation selects exactly the row with the operation's mnemonic (R86). -/
def Statement (i : Instr) : Prop := selectedRows (encode i) = [i.mnemonic]

/-- The four fields of a word are its four bytes (R80). -/
theorem fields_commandWord (a b c d : Byte) :
    fieldOp (commandWord a b c d) = a ∧ fieldF2 (commandWord a b c d) = b ∧
    fieldF1 (commandWord a b c d) = c ∧ fieldF0 (commandWord a b c d) = d := by
  refine ⟨?_, ?_, ?_, ?_⟩ <;> apply BitVec.eq_of_getLsbD_eq <;> intro i hi <;>
    simp only [fieldOp, fieldF2, fieldF1, fieldF0, commandWord, BitVec.getLsbD_extractLsb', BitVec.getLsbD_append] <;>
    interval_cases i <;> simp

theorem and_commandWord (a b c d e f g h : Byte) :
    commandWord a b c d &&& commandWord e f g h = commandWord (a &&& e) (b &&& f) (c &&& g) (d &&& h) := by
  apply BitVec.eq_of_getLsbD_eq
  intro i hi
  simp only [commandWord, BitVec.getLsbD_and, BitVec.getLsbD_append]
  interval_cases i <;> simp

/-- A row is selected exactly when each byte of the word, under the mask's byte, is the pattern's byte. -/
theorem selectedBy_commandWord (name : String) (p3 p2 p1 p0 m3 m2 m1 m0 a b c d : Byte) :
    OpcodeRow.selectedBy ⟨name, commandWord p3 p2 p1 p0, commandWord m3 m2 m1 m0⟩ (commandWord a b c d) =
      (a &&& m3 == p3 && (b &&& m2 == p2) && (c &&& m1 == p1) && (d &&& m0 == p0)) := by
  simp only [OpcodeRow.selectedBy, and_commandWord]
  rw [Bool.eq_iff_iff]
  simp only [beq_iff_eq, Bool.and_eq_true]
  constructor
  · intro h
    have hx := fields_commandWord (a &&& m3) (b &&& m2) (c &&& m1) (d &&& m0)
    rw [h] at hx
    have hy := fields_commandWord p3 p2 p1 p0
    exact ⟨⟨⟨hx.1.symm.trans hy.1, hx.2.1.symm.trans hy.2.1⟩, hx.2.2.1.symm.trans hy.2.2.1⟩,
      hx.2.2.2.symm.trans hy.2.2.2⟩
  · rintro ⟨⟨⟨rfl, rfl⟩, rfl⟩, rfl⟩
    rfl

/-- The opcode map with its words split into bytes. -/
theorem opcodeTable_bytes : opcodeTable =
    [⟨"RESET", commandWord 0x01 0 0 0, commandWord 0xFF 0xFF 0xFF 0xFF⟩,
     ⟨"CONFIGURE", commandWord 0x02 0 0 0, commandWord 0xFF 0xFF 0xFF 0xFF⟩,
     ⟨"SLOTIDX", commandWord 0x10 0 0 0, commandWord 0xFF 0xFF 0xFF 0xFF⟩,
     ⟨"SUBCHOFF", commandWord 0x11 0 0 0, commandWord 0xFF 0xFF 0xFF 0x00⟩,
     ⟨"RIVENC", commandWord 0x12 0 0 0, commandWord 0xFF 0xFF 0x00 0x00⟩,
     ⟨"RIVDEC", commandWord 0x13 0 0 0, commandWord 0xFF 0xFF 0xFF 0x00⟩,
     ⟨"SCIENC", commandWord 0x20 0 0 0, commandWord 0xFF 0xFF 0xFF 0xFF⟩,
     ⟨"SCIDEC", commandWord 0x21 0 0 0, commandWord 0xFF 0xFF 0xFF 0xFF⟩,
     ⟨"SCAN", commandWord 0x30 0 0 0, commandWord 0xFF 0xFF 0xFF 0xFF⟩,
     ⟨"COMBINE", commandWord 0x40 0 0 0, commandWord 0xFF 0xFF 0xFF 0x00⟩,
     ⟨"NEWGRANT", commandWord 0x50 0 0 0, commandWord 0xFF 0xF0 0x00 0x00⟩,
     ⟨"TBDECODED", commandWord 0x51 0 0 0, commandWord 0xFF 0xFE 0x00 0x00⟩,
     ⟨"BUILDGRANT", commandWord 0x60 0 0 0, commandWord 0xFF 0xFF 0xFF 0xFE⟩,
     ⟨"WORK", commandWord 0x70 0 0 0, commandWord 0xFF 0xFF 0xFF 0xFC⟩] := by decide

theorem reset : Statement .reset := by unfold Statement; decide +kernel
theorem configure : Statement .configure := by unfold Statement; decide +kernel
theorem slotidx : Statement .slotidx := by unfold Statement; decide +kernel
theorem scienc : Statement .scienc := by unfold Statement; decide +kernel
theorem scidec : Statement .scidec := by unfold Statement; decide +kernel
theorem scan : Statement .scan := by unfold Statement; decide +kernel

theorem subchoff (idx : Byte) : Statement (.subchoff idx) := by
  simp [Statement, selectedRows, encode, opcodeTable_bytes, selectedBy_commandWord, List.filter, Instr.mnemonic]

theorem rivenc (len start : Byte) : Statement (.rivenc len start) := by
  simp [Statement, selectedRows, encode, opcodeTable_bytes, selectedBy_commandWord, List.filter, Instr.mnemonic]

theorem rivdec (riv : Byte) : Statement (.rivdec riv) := by
  simp [Statement, selectedRows, encode, opcodeTable_bytes, selectedBy_commandWord, List.filter, Instr.mnemonic]

theorem combine (ctx : Byte) : Statement (.combine ctx) := by
  simp [Statement, selectedRows, encode, opcodeTable_bytes, selectedBy_commandWord, List.filter, Instr.mnemonic]

theorem newgrant (pid tb : Byte) (kind : Kind) (ndiPresent ndi : Bool) :
    Statement (.newgrant pid tb kind ndiPresent ndi) := by
  have h : ((0#4 ++ BitVec.ofBool ndi ++ BitVec.ofBool ndiPresent ++ kind.number : Byte) &&& 0xF0#8 == 0#8) = true := by
    cases kind <;> cases ndiPresent <;> cases ndi <;> decide
  simp [Statement, selectedRows, encode, opcodeTable_bytes, selectedBy_commandWord, List.filter, Instr.mnemonic, h]

theorem tbdecoded (pid tb : Byte) (ack : Bool) : Statement (.tbdecoded pid tb ack) := by
  have h : ((0#7 ++ BitVec.ofBool ack : Byte) &&& 0xFE#8 == 0#8) = true := by cases ack <;> decide
  simp [Statement, selectedRows, encode, opcodeTable_bytes, selectedBy_commandWord, List.filter, Instr.mnemonic, h]

theorem buildgrant (rti : Bool) : Statement (.buildgrant rti) := by unfold Statement; cases rti <;> decide +kernel

theorem work (txReq txRti : Bool) : Statement (.work txReq txRti) := by
  unfold Statement; cases txReq <;> cases txRti <;> decide +kernel

end Sys2Proof.Laws.SelectsOwnRow
end

