-- ==== Sys2Proof/Laws/Units.lean ====
section
/-! SUPPORT. What each unit's shared function can do to the state, said once: the fields it may write, the
sub-process or pair it may touch, and the events it may add. Proofs about operations cite these and do not unfold the
functions. -/

namespace Sys2Proof.Machine

/-! ### Event lists -/

@[simp] theorem txTicks_nil : txTicks [] = [] := rfl
@[simp] theorem pushes_nil : pushes [] = [] := rfl
@[simp] theorem txTicks_append (x y : List Event) : txTicks (x ++ y) = txTicks x ++ txTicks y := by simp [txTicks]
@[simp] theorem pushes_append (x y : List Event) : pushes (x ++ y) = pushes x ++ pushes y := by simp [pushes]

/-- `y` extends the history `x` by events none of which is a transmission or a push. -/
def Extends (x y : List Event) : Prop := ∃ more, y = x ++ more ∧ txTicks more = [] ∧ pushes more = []

theorem Extends.refl (x : List Event) : Extends x x := ⟨[], by simp⟩

theorem Extends.trans {x y z : List Event} (h : Extends x y) (k : Extends y z) : Extends x z := by
  obtain ⟨m, rfl, hm, hm'⟩ := h
  obtain ⟨n, rfl, hn, hn'⟩ := k
  exact ⟨m ++ n, by simp [hm, hn, hm', hn']⟩

theorem Extends.one (x : List Event) {e : Event} (h : txTicks [e] = []) (k : pushes [e] = []) : Extends x (x ++ [e]) :=
  ⟨[e], rfl, h, k⟩

theorem Extends.txTicks {x y : List Event} (h : Extends x y) : Machine.txTicks y = Machine.txTicks x := by
  obtain ⟨m, rfl, hm, -⟩ := h
  simp [hm]

theorem Extends.pushes {x y : List Event} (h : Extends x y) : Machine.pushes y = Machine.pushes x := by
  obtain ⟨m, rfl, -, hm⟩ := h
  simp [hm]

theorem State.release_extends (s : State) (h : Word) : Extends s.history (s.release h).history := by
  rcases s.release_cases h with ⟨-, e⟩ | ⟨-, e⟩ <;> rw [e]
  · exact .refl _
  · exact .one _ rfl rfl

theorem State.release_frame (s : State) (h : Word) : s.release h = { s with history := (s.release h).history } := by
  rcases s.release_cases h with ⟨-, e⟩ | ⟨-, e⟩ <;> (rw [e]; try rfl)

theorem State.writePayload_frame (s : State) (x : Attempts) (g : Gen) (h : Word) :
    s.writePayload x g h = { s with history := (s.writePayload x g h).history } := by
  unfold State.writePayload
  split
  · rfl
  · cases g <;> rfl

theorem State.writePayload_extends (s : State) (x : Attempts) (g : Gen) (h : Word) :
    Extends s.history (s.writePayload x g h).history := by
  unfold State.writePayload
  split
  · exact .refl _
  · cases g
    · exact .refl _
    · exact .one _ rfl rfl
    · exact .one _ rfl rfl

/-! ### The scanner -/

/-- The loop writes counters and the record of its questions only (R151). -/
theorem scanFrom_frame (C : Config) (slot : Word) (n i : Nat) (s : State) :
    (scanFrom C slot n i s).state =
      { s with
        counters := (scanFrom C slot n i s).state.counters
        asks := (scanFrom C slot n i s).state.asks
        history := (scanFrom C slot n i s).state.history } := by
  induction n generalizing i s with
  | zero => rfl
  | succ n ih =>
    simp only [scanFrom]
    split
    · rw [ih]; rfl
    · split
      · rw [ih]; rfl
      · rfl

theorem scanFrom_extends (C : Config) (slot : Word) (n i : Nat) (s : State) :
    Extends s.history (scanFrom C slot n i s).state.history := by
  induction n generalizing i s with
  | zero => exact .refl _
  | succ n ih =>
    simp only [scanFrom]
    split
    · exact .trans (.one _ rfl rfl) (ih (i + 1) _)
    · split
      · exact .trans (.one _ rfl rfl) (ih (i + 1) _)
      · exact .one _ rfl rfl

/-- The loop counts nothing but rejected candidates (R155). -/
theorem scanFrom_counter (C : Config) (slot : Word) (n i : Nat) (s : State) (k : Counter)
    (h : k ≠ .sciCrcFail) (h' : k ≠ .sciAlias) : (scanFrom C slot n i s).state.counter k = s.counter k := by
  induction n generalizing i s with
  | zero => rfl
  | succ n ih =>
    simp only [scanFrom]
    split
    · rw [ih, State.count_counter_other _ h.symm]; rfl
    · split
      · rw [ih, State.count_counter_other _ h'.symm]; rfl
      · rfl

/-- A hit is an accepted candidate of the scan (R151). -/
theorem scanFrom_hit (C : Config) (slot : Word) (n i : Nat) (s : State) (h : Hit)
    (e : (scanFrom C slot n i s).hit = some h) :
    i ≤ h.idx ∧ h.idx < i + n ∧ ∃ ans : CtrlAnswer,
      h = hitOf (sciDecode C s.cfg ans.info ans.parity) ans.ce h.idx ∧
      (sciDecode C s.cfg ans.info ans.parity).crcOk = true ∧
      consistentAt (sciDecode C s.cfg ans.info ans.parity) h.idx = true := by
  induction n generalizing i s with
  | zero => simp [scanFrom] at e
  | succ n ih =>
    simp only [scanFrom] at e
    split at e
    · obtain ⟨h1, h2, h3⟩ := ih _ _ e
      exact ⟨by omega, by omega, h3⟩
    · rename_i hc
      split at e
      · obtain ⟨h1, h2, h3⟩ := ih _ _ e
        exact ⟨by omega, by omega, h3⟩
      · rename_i hk
        simp only [Option.some.injEq] at e
        subst e
        refine ⟨le_rfl, by simp [hitOf], (askCtrlRx C s slot i).1, rfl, by simpa using hc,
          by simpa [hitOf] using hk⟩

theorem scan_hit_eq (C : Config) (slot : Word) (s : State) :
    (scan C slot s).hit = (scanFrom C slot s.cfg.nSubch.toNat 0 s).hit := rfl

/-- A scan writes the scanner registers, counters and the record of its questions only (R151). -/
theorem scan_frame (C : Config) (slot : Word) (s : State) :
    (scan C slot s).state =
      { s with
        csState := .idle
        csIdx := 0
        counters := (scan C slot s).state.counters
        asks := (scan C slot s).state.asks
        history := (scan C slot s).state.history } := by
  simp only [scan, State.scannerIdle]
  rw [scanFrom_frame]

theorem scan_extends (C : Config) (slot : Word) (s : State) : Extends s.history (scan C slot s).state.history :=
  scanFrom_extends C slot _ 0 s

/-! ### The combiner -/

/-- A combination writes one pair and the record of its questions and events only (R172, R176). -/
theorem combine_frame (C : Config) (c : Nat) (m : SciMsg) (sid slot ce handle : Word) (s : State) :
    (combine C c m sid slot ce handle s).state =
      { s with
        pairs := (combine C c m sid slot ce handle s).state.pairs
        asks := s.asks + 1
        history := (combine C c m sid slot ce handle s).state.history } := by
  apply State.ext <;> simp [combine, State.noteFec, askDataRx]

theorem combine_procs (C : Config) (c : Nat) (m : SciMsg) (sid slot ce handle : Word) (s : State) :
    (combine C c m sid slot ce handle s).state.procs = s.procs := by rw [combine_frame]

theorem combine_pairs (C : Config) (c : Nat) (m : SciMsg) (sid slot ce handle : Word) (s : State) :
    (combine C c m sid slot ce handle s).state.pairs =
      (s.setPair c (pairAfter C (s.pair c) m.rti (C.dataRx s.asks slot m sid ce) (occasionTbs C s.cfg m))).pairs := by
  simp [combine, State.noteFec, askDataRx, State.pair, State.setPair]

theorem combine_pair_self (C : Config) {c : Nat} (hc : c < 20) (m : SciMsg) (sid slot ce handle : Word) (s : State) :
    (combine C c m sid slot ce handle s).state.pair c =
      pairAfter C (s.pair c) m.rti (C.dataRx s.asks slot m sid ce) (occasionTbs C s.cfg m) := by
  rw [State.pair, combine_pairs]
  exact State.pair_setPair_self s hc _

theorem combine_pair_other (C : Config) {c d : Nat} (h : c ≠ d) (m : SciMsg) (sid slot ce handle : Word) (s : State) :
    (combine C c m sid slot ce handle s).state.pair d = s.pair d := by
  rw [State.pair, combine_pairs]
  exact State.pair_setPair_other s _ h

theorem combine_extends (C : Config) (c : Nat) (m : SciMsg) (sid slot ce handle : Word) (s : State) :
    Extends s.history (combine C c m sid slot ce handle s).state.history := by
  simp only [combine]
  refine .trans ?_ (State.writePayload_extends _ _ _ _)
  exact .trans (.one _ rfl rfl) (.trans (.one _ rfl rfl) (.one _ rfl rfl))

/-- A pair after an occasion keeps the two-occasion window (R170, R172). -/
theorem pairAfter_window (C : Config) (p : BufferPair) (rti : Bool) (soft : SoftVec) (t : Word) :
    PairWindow (pairAfter C p rti soft t) := by
  cases rti <;> constructor <;> simp [pairAfter, combBefore, SoftBuffer.attempt, SoftBuffer.resetFor]

/-! ### Grant handling -/

/-- Grant handling writes counters, one sub-process and the record of questions and events only (R195). -/
theorem newGrant_frame (C : Config) (p tb : Nat) (g : Grant) (s : State) :
    (newGrant C p tb g s).state =
      { s with
        counters := (newGrant C p tb g s).state.counters
        procs := (newGrant C p tb g s).state.procs
        asks := (newGrant C p tb g s).state.asks
        history := (newGrant C p tb g s).state.history } := by
  simp only [newGrant, duplicateGrant, allocateGrant, acceptGrant, askAlloc]
  (repeat' split) <;> (apply State.ext <;> simp)

theorem newGrant_sub_other (C : Config) {p tb q ub : Nat} (h : (p, tb) ≠ (q, ub)) (g : Grant) (s : State) :
    (newGrant C p tb g s).state.sub q ub = s.sub q ub := by
  simp only [newGrant, duplicateGrant, allocateGrant, acceptGrant, askAlloc]
  (repeat' split) <;> simp [State.sub_setSub_other _ _ h] <;> simp [State.sub]

theorem newGrant_extends (C : Config) (p tb : Nat) (g : Grant) (s : State) :
    Extends s.history (newGrant C p tb g s).state.history := by
  have hr := State.release_extends
  have h1 : ∀ x : List Event, ∀ n h, Extends x (x ++ [.alloc n h]) := fun x n h => .one _ rfl rfl
  simp only [newGrant, duplicateGrant, allocateGrant, acceptGrant, askAlloc]
  (repeat' split) <;> simp only [State.setSub, State.count, State.note] <;>
    first
      | exact .refl _
      | exact hr s _
      | exact h1 _ _ _
      | exact .trans (hr s _) (h1 _ _ _)
      | exact hr { s with counters := _ } _

theorem isDuplicate_iff (sp : SubProc) (g : Grant) : isDuplicate sp g = true ↔ Repeats sp g := by
  unfold isDuplicate Repeats SigEqual sameSig
  cases sp.last <;> cases sp.first <;> cases sp.ack <;> simp [and_assoc]

theorem isNew_iff (sp : SubProc) (g : Grant) : isNew sp g = true ↔ StartsNew sp g := by simp [isNew, StartsNew]

theorem isDiscont_iff (sp : SubProc) (g : Grant) : isDiscont sp g = true ↔ ¬ StartsNew sp g ∧ ¬ Continues sp g := by
  rw [← isNew_iff]
  unfold isDiscont Continues connects
  cases sp.last <;> simp
  tauto

/-- The three ways of steps (4) and (5) of rule R195: no buffer, a new buffer, the held buffer. -/
theorem allocateGrant_cases (C : Config) {p tb : Nat} (hp : p < 255) (ht : tb < 2) (sp : SubProc) (b : Bool) (s : State) :
    (sp.payload = 0 ∧ C.alloc s.asks (bytesOf sp.tbs) = 0 ∧
      (allocateGrant C p tb sp b s).status = .allocFail ∧
      (allocateGrant C p tb sp b s).act = { decodeEnabled := false, defaultAck := false, sbReset := b } ∧
      (allocateGrant C p tb sp b s).handle = 0 ∧ (allocateGrant C p tb sp b s).state.sub p tb = sp) ∨
    (∃ h, h ≠ 0 ∧ (if sp.payload = 0 then h = C.alloc s.asks (bytesOf sp.tbs) else h = sp.payload) ∧
      (allocateGrant C p tb sp b s).status = .ok ∧
      (allocateGrant C p tb sp b s).act = { decodeEnabled := true, defaultAck := false, sbReset := b } ∧
      (allocateGrant C p tb sp b s).handle = h ∧
      (allocateGrant C p tb sp b s).state.sub p tb = { sp with payload := h, state := .awaitingDecode }) := by
  by_cases h : sp.payload = 0
  · by_cases k : C.alloc s.asks (bytesOf sp.tbs) = 0
    · left
      have e : allocateGrant C p tb sp b s =
          { status := .allocFail, act := { decodeEnabled := false, defaultAck := false, sbReset := b }, handle := 0
            state := ((askAlloc C s (bytesOf sp.tbs)).2.count .allocFail).setSub p tb sp } := by
        rw [allocateGrant, if_pos h]
        exact if_pos k
      rw [e]
      exact ⟨h, k, rfl, rfl, rfl, State.sub_setSub_self _ hp ht _⟩
    · right
      have e : allocateGrant C p tb sp b s =
          acceptGrant p tb sp (C.alloc s.asks (bytesOf sp.tbs)) b (askAlloc C s (bytesOf sp.tbs)).2 := by
        rw [allocateGrant, if_pos h]
        exact if_neg k
      rw [e]
      exact ⟨_, k, by rw [if_pos h], rfl, rfl, rfl, State.sub_setSub_self _ hp ht _⟩
  · right
    have e : allocateGrant C p tb sp b s = acceptGrant p tb sp sp.payload b s := by rw [allocateGrant, if_neg h]
    rw [e]
    exact ⟨_, h, by rw [if_neg h], rfl, rfl, rfl, State.sub_setSub_self _ hp ht _⟩

/-- The four outcomes of grant handling and the sub-process each leaves (R195): the duplicate past its bound, the
duplicate, no buffer, and acceptance. -/
theorem newGrant_cases (C : Config) {p tb : Nat} (hp : p < 255) (ht : tb < 2) (g : Grant) (s : State) :
    (Repeats (s.sub p tb) g ∧ C.dupLimit < ((s.sub p tb).dupCnt + 1).toNat ∧ (newGrant C p tb g s).status = .dupReset ∧
      (newGrant C p tb g s).act = { decodeEnabled := false, defaultAck := true, sbReset := false } ∧
      (newGrant C p tb g s).state.sub p tb = (s.sub p tb).cleared (s.sub p tb).tbs) ∨
    (Repeats (s.sub p tb) g ∧ ¬ C.dupLimit < ((s.sub p tb).dupCnt + 1).toNat ∧
      (newGrant C p tb g s).status = .duplicate ∧
      (newGrant C p tb g s).act = { decodeEnabled := false, defaultAck := true, sbReset := false } ∧
      (newGrant C p tb g s).state.sub p tb = { s.sub p tb with dupCnt := (s.sub p tb).dupCnt + 1 }) ∨
    (¬ Repeats (s.sub p tb) g ∧ (recorded (s.sub p tb) g).payload = 0 ∧ (newGrant C p tb g s).status = .allocFail ∧
      (newGrant C p tb g s).act =
        { decodeEnabled := false, defaultAck := false, sbReset := grantResets (s.sub p tb) g } ∧
      (newGrant C p tb g s).state.sub p tb = recorded (s.sub p tb) g) ∨
    (¬ Repeats (s.sub p tb) g ∧ (newGrant C p tb g s).status = .ok ∧
      (newGrant C p tb g s).act =
        { decodeEnabled := true, defaultAck := false, sbReset := grantResets (s.sub p tb) g } ∧
      (newGrant C p tb g s).handle ≠ 0 ∧
      (newGrant C p tb g s).state.sub p tb =
        { recorded (s.sub p tb) g with payload := (newGrant C p tb g s).handle, state := .awaitingDecode }) := by
  by_cases hd : isDuplicate (s.sub p tb) g = true
  · have e : newGrant C p tb g s = duplicateGrant C p tb s := by simp only [newGrant, hd, if_true]
    rw [e]
    simp only [duplicateGrant]
    by_cases hl : C.dupLimit < ((s.sub p tb).dupCnt + 1).toNat
    · left
      rw [if_pos hl]
      exact ⟨(isDuplicate_iff _ _).1 hd, hl, rfl, rfl, State.sub_setSub_self _ hp ht _⟩
    · right; left
      rw [if_neg hl]
      exact ⟨(isDuplicate_iff _ _).1 hd, hl, rfl, rfl, State.sub_setSub_self _ hp ht _⟩
  · right; right
    have hr : ¬ Repeats (s.sub p tb) g := fun h => hd ((isDuplicate_iff _ _).2 h)
    obtain ⟨s2, e⟩ : ∃ s2, newGrant C p tb g s =
        allocateGrant C p tb (recorded (s.sub p tb) g) (grantResets (s.sub p tb) g) s2 := by
      simp only [newGrant, Bool.not_eq_true] at hd ⊢
      simp only [hd, Bool.false_eq_true, if_false]
      exact ⟨_, rfl⟩
    rw [e]
    rcases allocateGrant_cases C hp ht (recorded (s.sub p tb) g) (grantResets (s.sub p tb) g) s2 with
      ⟨h1, -, h2, h3, -, h4⟩ | ⟨h, h1, -, h2, h3, h4, h5⟩
    · exact .inl ⟨hr, h1, h2, h3, h4⟩
    · exact .inr ⟨hr, h2, h3, h4 ▸ h1, h4 ▸ h5⟩

/-- An accepted grant leaves its sub-process waiting for the decode (R195 step 5). -/
theorem newGrant_accepted (C : Config) {p tb : Nat} (hp : p < 255) (ht : tb < 2) (g : Grant) (s : State)
    (h : (newGrant C p tb g s).act.decodeEnabled = true) :
    (newGrant C p tb g s).status = .ok ∧ ((newGrant C p tb g s).state.sub p tb).state = .awaitingDecode := by
  rcases newGrant_cases C hp ht g s with ⟨-, -, -, k, -⟩ | ⟨-, -, -, k, -⟩ | ⟨-, -, -, k, -⟩ | ⟨-, k, -, -, e⟩
  · rw [k] at h; cases h
  · rw [k] at h; cases h
  · rw [k] at h; cases h
  · exact ⟨k, by rw [e]⟩

/-! ### Delivery -/

/-- The status of a delivery whose decode is awaited (R200). -/
theorem tbDecoded_status {p tb : Nat} {s : State} (h : (s.sub p tb).state = .awaitingDecode) (ack : Bool) :
    (tbDecoded p tb ack s).status = if ack then .ok else .dataFail := by
  unfold tbDecoded
  rw [if_pos h]
  cases ack <;> rfl

/-- Delivery writes counters, the metrics, one sub-process and one event only (R200). -/
theorem tbDecoded_frame (p tb : Nat) (ack : Bool) (s : State) :
    (tbDecoded p tb ack s).state =
      { s with
        counters := (tbDecoded p tb ack s).state.counters
        procs := (tbDecoded p tb ack s).state.procs
        retxSum := (tbDecoded p tb ack s).state.retxSum
        pktCnt := (tbDecoded p tb ack s).state.pktCnt
        history := (tbDecoded p tb ack s).state.history } := by
  simp only [tbDecoded, deliver, giveBack]
  (repeat' split) <;> rfl

theorem tbDecoded_sub_other {p tb q ub : Nat} (h : (p, tb) ≠ (q, ub)) (ack : Bool) (s : State) :
    (tbDecoded p tb ack s).state.sub q ub = s.sub q ub := by
  simp only [tbDecoded, deliver, giveBack]
  (repeat' split) <;> simp [State.sub_setSub_other _ _ h] <;> simp [State.sub]

/-- Delivery adds at most one event, a push or a return of the buffer (R200). -/
theorem tbDecoded_history (p tb : Nat) (ack : Bool) (s : State) :
    (tbDecoded p tb ack s).state.history = s.history ∨
    (∃ k h n, (tbDecoded p tb ack s).state.history = s.history ++ [.push k h n]) ∨
    (∃ h, (tbDecoded p tb ack s).state.history = s.history ++ [.dealloc h]) := by
  simp only [tbDecoded, deliver, giveBack]
  (repeat' split)
  · exact .inr (.inl ⟨_, _, _, rfl⟩)
  · exact .inr (.inr ⟨_, rfl⟩)
  · exact .inl rfl

theorem tbDecoded_txTicks (p tb : Nat) (ack : Bool) (s : State) :
    txTicks (tbDecoded p tb ack s).state.history = txTicks s.history := by
  rcases tbDecoded_history p tb ack s with h | ⟨k, h, n, e⟩ | ⟨h, e⟩
  · rw [h]
  · rw [e]; simp [txTicks]
  · rw [e]; simp [txTicks]

/-! ### The transmit scheduler -/

/-- The scheduler writes its counter, `tx_last` and the record of its draw only (R232). -/
theorem buildGrant_frame (C : Config) (slot bits : Word) (rti : Bool) (s : State) :
    (buildGrant C slot bits rti s).state =
      { s with
        counters := (buildGrant C slot bits rti s).state.counters
        txLast := (buildGrant C slot bits rti s).state.txLast
        asks := (buildGrant C slot bits rti s).state.asks
        history := (buildGrant C slot bits rti s).state.history } := by
  simp only [buildGrant, buildSecond, buildFirst, noGrant, askRand]
  (repeat' split) <;> rfl

theorem buildGrant_extends (C : Config) (slot bits : Word) (rti : Bool) (s : State) :
    Extends s.history (buildGrant C slot bits rti s).state.history := by
  simp only [buildGrant, buildSecond, buildFirst, noGrant, askRand]
  (repeat' split) <;> first | exact .refl _ | exact .one _ rfl rfl

/-- What a build answers: no message, with nothing written but a counter; or a message, remembered or drawn for by the
last question (R232). -/
theorem buildGrant_cases (C : Config) (slot bits : Word) (rti : Bool) (s : State) :
    ((buildGrant C slot bits rti s).msg = none ∧ (buildGrant C slot bits rti s).state.asks = s.asks ∧
      (buildGrant C slot bits rti s).state.txLast = s.txLast) ∨
    (∃ m, (buildGrant C slot bits rti s).msg = some m ∧ (buildGrant C slot bits rti s).status = .ok ∧
      ((rti = true ∧ (buildGrant C slot bits rti s).state = s) ∨
       (rti = false ∧ (buildGrant C slot bits rti s).state.asks = s.asks + 1))) := by
  cases rti <;> simp only [buildGrant, buildSecond, buildFirst, noGrant, askRand]
  all_goals (repeat' split)
  all_goals simp_all [State.count, State.note]

/-- What a build answers depends on the configuration, the remembered message and, for a first generation that is
built, on the number of its draw (R232, R233). -/
theorem buildGrant_congr (C : Config) (slot bits : Word) (rti : Bool) {s u : State} (hc : s.cfg = u.cfg)
    (hl : s.txLast = u.txLast)
    (ha : (∃ m, (buildGrant C slot bits rti s).msg = some m) → rti = false → s.asks = u.asks) :
    (buildGrant C slot bits rti s).status = (buildGrant C slot bits rti u).status ∧
    (buildGrant C slot bits rti s).msg = (buildGrant C slot bits rti u).msg ∧
    (buildGrant C slot bits rti s).state.txLast = (buildGrant C slot bits rti u).state.txLast := by
  revert ha
  cases rti <;> simp only [buildGrant, buildSecond, buildFirst, noGrant, askRand, hc, hl]
  all_goals (repeat' split)
  all_goals simp_all [State.count]
  exact fun _ => by rw [hc]

/-! ### The result registers and the last tick play no part inside a stage -/

/-- The state with other result registers and another last tick. -/
def State.withRecord (s : State) (r : Vector Word 8) (l : Option Word) : State := { s with r := r, lastTick := l }

theorem scanFrom_withRecord (C : Config) (slot : Word) (n i : Nat) (s : State) (r : Vector Word 8) (l : Option Word) :
    scanFrom C slot n i (s.withRecord r l) =
      { hit := (scanFrom C slot n i s).hit, state := (scanFrom C slot n i s).state.withRecord r l } := by
  induction n generalizing i s with
  | zero => rfl
  | succ n ih =>
    have e : askCtrlRx C (s.withRecord r l) slot i =
        ((askCtrlRx C s slot i).1, (askCtrlRx C s slot i).2.withRecord r l) := rfl
    have k : ∀ (u : State) (c : Counter), (u.withRecord r l).count c = (u.count c).withRecord r l := fun _ _ => rfl
    simp only [scanFrom, e, k, ih, show (s.withRecord r l).cfg = s.cfg from rfl]
    (repeat' split) <;> rfl

theorem scan_withRecord (C : Config) (slot : Word) (s : State) (r : Vector Word 8) (l : Option Word) :
    scan C slot (s.withRecord r l) =
      { hit := (scan C slot s).hit, state := (scan C slot s).state.withRecord r l } := by
  unfold scan
  rw [show (s.withRecord r l).cfg = s.cfg from rfl, scanFrom_withRecord]
  rfl

theorem newGrant_withRecord (C : Config) (p tb : Nat) (g : Grant) (s : State) (r : Vector Word 8) (l : Option Word) :
    newGrant C p tb g (s.withRecord r l) =
      { newGrant C p tb g s with state := (newGrant C p tb g s).state.withRecord r l } := by
  have hs : (s.withRecord r l).sub p tb = s.sub p tb := rfl
  have hr : ∀ (u : State) h, (u.withRecord r l).release h = (u.release h).withRecord r l := fun u h => by
    unfold State.release; split <;> rfl
  have hc : ∀ (u : State) (c : Counter), (u.withRecord r l).count c = (u.count c).withRecord r l := fun _ _ => rfl
  have hn : ∀ (u : State) q, (u.withRecord r l).setSub p tb q = (u.setSub p tb q).withRecord r l := fun _ _ => rfl
  have ha : ∀ (u : State) n, askAlloc C (u.withRecord r l) n =
      ((askAlloc C u n).1, (askAlloc C u n).2.withRecord r l) := fun _ _ => rfl
  simp only [newGrant, duplicateGrant, allocateGrant, acceptGrant, hs, hr, hc, hn, ← apply_ite (State.withRecord · r l), ha]
  (repeat' split) <;> rfl

theorem combine_withRecord (C : Config) (c : Nat) (m : SciMsg) (sid slot ce handle : Word) (s : State)
    (r : Vector Word 8) (l : Option Word) :
    combine C c m sid slot ce handle (s.withRecord r l) =
      { combine C c m sid slot ce handle s with
        state := (combine C c m sid slot ce handle s).state.withRecord r l } := by
  have hw : ∀ (u : State) x g, (u.withRecord r l).writePayload x g handle =
      (u.writePayload x g handle).withRecord r l := fun u x g => by
    unfold State.writePayload; split; rfl; cases g <;> rfl
  have hq : askDataRx C (s.withRecord r l) slot m sid ce =
      ((askDataRx C s slot m sid ce).1, (askDataRx C s slot m sid ce).2.withRecord r l) := rfl
  have hn : ∀ (u : State) a x, (u.withRecord r l).noteFec C a x = (u.noteFec C a x).withRecord r l := fun _ _ _ => rfl
  have hp : ∀ (u : State) x, (u.withRecord r l).setPair c x = (u.setPair c x).withRecord r l := fun _ _ => rfl
  have hg : ∀ u : State, (u.withRecord r l).pair c = u.pair c := fun _ => rfl
  simp only [combine, hq, hn, hg, hp, hw, show (s.withRecord r l).cfg = s.cfg from rfl]

/-! ### The stages of WORK -/

/-- What the receive stage can write (R255). -/
theorem receiveStage_frame (C : Config) (slot : Word) (s : State) :
    receiveStage C slot s =
      { s with
        r := (receiveStage C slot s).r
        csState := .idle
        csIdx := 0
        pairs := (receiveStage C slot s).pairs
        procs := (receiveStage C slot s).procs
        retxSum := (receiveStage C slot s).retxSum
        pktCnt := (receiveStage C slot s).pktCnt
        counters := (receiveStage C slot s).counters
        asks := (receiveStage C slot s).asks
        history := (receiveStage C slot s).history } := by
  simp only [receiveStage]
  split
  · rw [scan_frame]; rfl
  · simp only [receiveHit]
    split
    · rw [tbDecoded_frame, combine_frame, newGrant_frame, scan_frame]; rfl
    · rw [newGrant_frame, scan_frame]; rfl

/-- What the transmit stage can write (R255). -/
theorem transmitStage_frame (C : Config) (tick slot : Word) (txReq txRti : Bool) (s : State) :
    transmitStage C tick slot txReq txRti s =
      { s with
        r := (transmitStage C tick slot txReq txRti s).r
        counters := (transmitStage C tick slot txReq txRti s).counters
        txLast := (transmitStage C tick slot txReq txRti s).txLast
        asks := (transmitStage C tick slot txReq txRti s).asks
        history := (transmitStage C tick slot txReq txRti s).history } := by
  simp only [transmitStage]
  split
  · split
    · rw [buildGrant_frame]; rfl
    · rw [buildGrant_frame]; rfl
  · rfl

end Sys2Proof.Machine
end

