-- ==== Sys2Proof/Tests/Slice0.lean ====
section
/-! SUPPORT. The model's own tests: the decoding of words written out from spec/30_encoding.md rule R86, the refusal
of ill-formed words, one or two steps per operation against spec/95_test_vectors.md, and the witnesses of the
obligations' hypotheses. Expected values are those of the spec's vectors (V-*, P-*), under the default parameters
and the fixtures of that file. -/

namespace Sys2Proof.Tests

open Sys2Proof Sys2Proof.Machine

-- One theorem after another: each `decide` would else hold a thread of its own until the ones before are checked.
set_option Elab.async false

/-! ### Decoding (R82, R86) -/

theorem test_decode_reset : decode 0x01000000#32 = .ok .reset := by decide
theorem test_decode_configure : decode 0x02000000#32 = .ok .configure := by decide
theorem test_decode_slotidx : decode 0x10000000#32 = .ok .slotidx := by decide
theorem test_decode_subchoff : decode 0x11000003#32 = .ok (.subchoff 3) := by decide
theorem test_decode_rivenc : decode 0x12000401#32 = .ok (.rivenc 4 1) := by decide
theorem test_decode_rivdec : decode 0x1300000D#32 = .ok (.rivdec 13) := by decide
theorem test_decode_scienc : decode 0x20000000#32 = .ok .scienc := by decide
theorem test_decode_scidec : decode 0x21000000#32 = .ok .scidec := by decide
theorem test_decode_scan : decode 0x30000000#32 = .ok .scan := by decide
theorem test_decode_combine : decode 0x40000004#32 = .ok (.combine 4) := by decide
/-- Word of V-HE row 1: bits 19, 18 and 17:16 are `ndi`, `ndi_present` and `kind`. -/
theorem test_decode_newgrant : decode 0x500F0002#32 = .ok (.newgrant 2 0 .sidelink true true) := by decide
theorem test_decode_newgrant_fields : decode 0x50040103#32 = .ok (.newgrant 3 1 .bcastCtrl true false) := by decide
theorem test_decode_tbdecoded : decode 0x51010002#32 = .ok (.tbdecoded 2 0 true) := by decide
theorem test_decode_buildgrant : decode 0x60000001#32 = .ok (.buildgrant true) := by decide
theorem test_decode_work : decode 0x70000001#32 = .ok (.work true false) := by decide
theorem test_decode_work_rti : decode 0x70000002#32 = .ok (.work false true) := by decide
theorem test_table_word : decodeTableWord 32 0x51000307 = some (.tbdecoded 7 3 false) := by decide

/-! ### Ill-formed words are refused (R87, V-SYS rows 11 to 17): every row with a bit that must be zero set -/

theorem test_illegal_zero_word : wordLegal 0x00000000#32 = false ∧ decode 0#32 = .error .unknownOpcode := by decide
theorem test_illegal_opcodes :
    [0x03000000#32, 0x14000000#32, 0x80000000#32].all (fun w => !wordLegal w && decide (decode w = .error .unknownOpcode))
      = true := by decide
theorem test_illegal_bits :
    [0x01000001#32, 0x02000100#32, 0x10010000#32, 0x11000100#32, 0x12010000#32, 0x13800000#32, 0x20000001#32,
     0x21000080#32, 0x30400000#32, 0x40000104#32, 0x50100002#32, 0x51020002#32, 0x60000002#32, 0x70000004#32].all
      (fun w => !wordLegal w && decide (decode w = .error .mustBeZeroBitSet)) = true := by decide

/-! ### The fixtures of spec/95_test_vectors.md -/

/-- The noise answer of `CtrlRx`: its checksum does not validate. -/
def noise : CtrlAnswer := { ce := 0, info := 0, parity := 0xFFFF }

/-- `CtrlRx` as V-CS row 1 (slot 10) and P4 (slot 14) have it. -/
def airP4 (slot : Word) (i : Nat) : CtrlAnswer :=
  if slot = 10 ∧ i = 3 then { ce := 33, info := 0x6228D000, parity := 0x8EFA }
  else if slot = 10 ∧ i = 4 then { ce := 44, info := 0x6288D000, parity := 0x3366 }
  else if slot = 14 ∧ i = 4 then { ce := 45, info := 0x6288D800, parity := 0xBACF }
  else noise

/-- The default parameters of rule R9 with the fixtures `TBS`, `QM` and `FecDec` of spec/95_test_vectors.md. -/
def fixture : Config :=
  { nProcPred := 7, nTbPred := 0, dupLimit := 4, hcTie := .combined, ctrlPrbFin := 2, mcsMaxFin := 28,
    tbs := fun mcs n => if 1 ≤ n then BitVec.ofInt 32 (20 * n * (mcs.toNat + 1)) else 0
    qm := fun mcs => if mcs.toNat ≤ 10 then .two else if mcs.toNat ≤ 20 then .four else .six
    nodeCountPred := 1, nodeIdRaw := 0, txPrio := 0, txResv := 0, txGap := 4, nprbCarrierPred := 99
    ctrlRx := fun _ slot i => airP4 slot i
    dataRx := fun _ slot _ _ _ => if slot = 10 then [6] else [7]
    fecDec := fun acc t => (BitVec.ofNat t acc.length, decide (10 ≤ acc.flatten.sum))
    alloc := fun n _ => BitVec.ofNat 32 (100 + n)
    rand := fun _ k => Fin.ofNat (k + 1) 3 }

/-- The configuration `CFG-A`. -/
def cfgA : PoolCfg :=
  { bitmapLen := 5, bitmap := [true, true, false, true, false], nSubch := 5, width := 5, startOff := 0,
    syncPeriod := 10, syncOff := 3 }

/-- Power-on reset with `CFG-A` in force. -/
def sA : State := { State.reset with cfgValid := true, cfg := cfgA }

/-- `sA` with operand registers `A0`, `A1`, `A2`, `A3`, `A4`. -/
def sAWith (a0 a1 a2 a3 a4 : Word) : State := { sA with a := #v[a0, a1, a2, a3, a4, 0, 0, 0] }

/-- The status and the first result registers of a state. -/
def seen (s : State) (regs : List (Fin 8)) : Word × List Word := (s.status, regs.map fun i => s.r[i])

/-! ### ResourcePool and SciCodec (V-RP, V-RIV, V-SCI) -/

theorem test_slotidx_cfgA :
    (List.range 12).map (fun t => slotIndex cfgA t) =
      [some 0, some 1, none, none, some 2, none, some 3, some 4, none, some 5, none, some 6] := by decide +kernel
theorem test_slotidx : seen (opSlotidx (sAWith 26 0 0 0 0)) [0] = (0, [14]) := by decide +kernel
theorem test_subchoff : seen (opSubchoff 3 sA) [0, 1] = (0, [15, 5]) := by decide +kernel
theorem test_subchoff_range : seen (opSubchoff 5 sA) [0, 1] = (0x32, [0, 0]) := by decide +kernel
theorem test_rivenc : seen (opRivenc 4 1 sA) [0] = (0, [13]) := by decide +kernel
theorem test_rivenc_range : seen (opRivenc 3 3 sA) [0] = (0x32, [0]) := by decide +kernel
theorem test_rivdec : seen (opRivdec 9 sA) [0, 1] = (0, [5, 0]) := by decide +kernel
theorem test_rivdec_invalid : seen (opRivdec 15 sA) [0, 1] = (0x32, [0, 0]) := by decide +kernel
theorem test_riv_bits : [1, 2, 3, 5, 8, 10, 15, 20].map rivBits = [0, 2, 3, 4, 6, 6, 7, 8] := by decide +kernel
/-- Check value of rule R92: the ASCII string "123456789". -/
theorem test_crc_check :
    crc16 ([0x31, 0x32, 0x33, 0x34, 0x35, 0x36, 0x37, 0x38, 0x39].flatMap (bitsOf 8)) = 0x31C3 := by decide +kernel
theorem test_scienc : seen (opScienc (sAWith 0x006A018B 0 0 0 0)) [0, 1] = (0, [0x6268D000, 0x9357]) := by decide +kernel
theorem test_scienc_riv : seen (opScienc (sAWith 0x00000780 0 0 0 0)) [0, 1] = (0x32, [0, 0]) := by decide +kernel
theorem test_scienc_n20 :
    sciEncode 20 (msgOfWord 0x00A46895) = { info := 0xA5A31400, crc := 0x7D48 } := by decide +kernel
theorem test_scidec :
    seen (opScidec fixture (sAWith 0x6268D7FF 0x1430 0 0 0)) [0, 1, 2, 3]
      = (0, [0x006A018B, 0x1430, 840, 0x00340301]) := by decide +kernel
theorem test_scidec_crc_first :
    seen (opScidec fixture (sAWith 0x01E00000 0 0 0 0)) [0, 1, 2, 3]
      = (0x10, [0x00000780, 0xD685, 0, 0x00020000]) := by decide +kernel

/-! ### Scanner (V-CS rows 1 and 3) -/

theorem test_scan_hit :
    let t := opScan fixture (sAWith 10 0 0 0 0)
    (seen t [0, 1, 2, 3, 4, 5], t.counters.toList.take 2, t.history.length)
      = ((0, [0x006A020B, 0x3366, 4, 44, 840, 0x00340401]), [3, 1], 5) := by decide +kernel
theorem test_scan_none :
    let t := opScan fixture (sAWith 11 0 0 0 0)
    (seen t [0, 5], t.counters.toList.take 2) = ((2, [0, 0]), [5, 0]) := by decide +kernel

/-! ### Combiner (V-HC rows 1 and 2, as P2 steps 2 and 5) -/

theorem test_combine_first :
    let t := opCombine fixture 4 (sAWith 0x006A020B 0x3366 10 44 7)
    (seen t [0, 1], (t.pair 4).comb) = ((0x11, [0, 840]), { tbs := some 840, acc := [[6]], ok := false }) := by
  decide +kernel
theorem test_combine_second :
    let s := { opCombine fixture 4 (sAWith 0x006A020B 0x3366 10 44 7) with a := #v[0x016A020B, 0xBACF, 14, 45, 7, 0, 0, 0] }
    let t := opCombine fixture 4 s
    (seen t [0, 1], t.pair 4)
      = ((0, [5, 840]), { fresh := { tbs := some 840, acc := [[7]], ok := false },
                          comb := { tbs := some 840, acc := [], ok := false } }) := by decide +kernel

/-! ### HARQ entity (V-HE rows 1, 5 and 4) -/

/-- V-HE row 1: the first grant of sub-process (2, 0). -/
def sGrant : State := opNewgrant fixture 2 0 .sidelink true true (sAWith 840 10 0x04 0 0)

theorem test_newgrant_first :
    (seen sGrant [0, 1], sGrant.sub 2 0, sGrant.history)
      = ((0, [5, 100]),
         { state := .awaitingDecode, first := false, ack := false, nRetx := 0, dupCnt := 0, tbs := 840,
           last := some { kind := .sidelink, ndiPresent := true, ndi := true, tbs := 840, slot := 10, gap := 4, rti := false },
           payload := 100, sb := { tbs := some 840, acc := [], ok := false } },
         [.alloc 105 100]) := by decide +kernel
theorem test_newgrant_discont :
    let s := { opTbdecoded fixture 2 0 false sGrant with a := #v[840, 14, 0x15, 0, 0, 0, 0, 0] }
    let t := opNewgrant fixture 2 0 .sidelink true false s
    (seen t [0, 1], t.counter .discont, t.history)
      = ((0, [5, 101]), 1, [.alloc 105 100, .dealloc 100, .alloc 105 101]) := by decide +kernel
theorem test_tbdecoded_ok :
    let t := opTbdecoded fixture 2 0 true sGrant
    (t.status, (t.sub 2 0).state, (t.sub 2 0).payload, t.pktCnt, t.history)
      = (0, .decodedOk, 0, 1, [.alloc 105 100, .push .sidelink 100 105]) := by decide +kernel
theorem test_tbdecoded_none : (opTbdecoded fixture 3 0 true sA).status = 0x32 := by decide +kernel

/-! ### TxScheduler (V-TX rows 1 and 5) -/

theorem test_buildgrant :
    seen (opBuildgrant fixture false (sAWith 0 800 0 0 0)) [0, 1, 2, 3, 4, 5]
      = (0, [0x006A0180, 0, 3, 17, 840, 0x00340301]) := by decide +kernel
theorem test_buildgrant_wide :
    seen (opBuildgrant fixture false (sAWith 2 4641 0 0 0)) [0, 2, 3, 4, 5]
      = (0, [0x00620680, 18, 7, 4680, 0x00340104]) := by decide +kernel

/-! ### System (V-SYS, P4, P6) -/

theorem test_configure :
    let t := opConfigure fixture { State.reset with a := #v[0x05000505, 0x0003000A, 0xFFFFFFEB, 0, 0, 0, 0, 0] }
    (t.status, t.cfgValid, t.cfg) = (0, true, cfgA) := by decide +kernel
theorem test_configure_refused :
    let t := opConfigure fixture { State.reset with a := #v[0x05000505, 0x000A000A, 0x0B, 0, 0, 0, 0, 0] }
    (t.status, t.cfgValid) = (0x31, false) := by decide +kernel
theorem test_reset : let t := opReset fixture sGrant
    (t.history, t.sub 2 0, t.cfgValid, t.a) = ([.alloc 105 100, .dealloc 100], .reset, true, sGrant.a) := by
  decide +kernel
/-- P4 step 2 under `CFG-A`, where tick 18 has ordinal 10 (V-SYS row 3). -/
theorem test_work_receive :
    let t := opWork fixture false false (sAWith 18 0 0 0 0)
    (seen t [0, 1, 2, 3, 5], t.history.length, (t.sub 2 0).state, t.lastTick)
      = ((0, [10, 0x00480211, 0, 0x006A020B, 0x3366]), 10, .decodedKo, some 18) := by decide +kernel
/-- P6 step 1. -/
theorem test_work_transmit :
    let t := opWork fixture true false (sAWith 0 800 0 0 0)
    (seen t [0, 1, 2, 4, 6, 7], t.history.getLast?)
      = ((0, [0, 2, 0x100, 0x006A0180, 0x0068D000, 0x27ED]),
         some (.txOut 0 0x0068D000 0x27ED { tbs := 840, qm := .four, nPrb := 3, firstPrb := 17 })) := by decide +kernel

/-! ### Witnesses: for every obligation with hypotheses, a state and operands that meet them together, at boundary
values of its clauses. `Config.hw` is opaque, so where an obligation speaks of it the witness holds for every record. -/

/-- A state whose next access of the host is the given one. -/
def sNext (x : HostAccess) : State := { State.reset with inbox := [x] }

theorem witness_EncodeOfDecode : ∃ w i, decode w = .ok i := ⟨0x70000003#32, _, rfl⟩

theorem witness_StepRunsDecoded :
    NextCommand (sNext (issueAction .scan)) 0x30000000#32 [] ∧ decode 0x30000000#32 = .ok .scan := by
  unfold NextCommand; decide

theorem witness_IllegalWordOnlySetsStatus :
    NextCommand (sNext (.write 0x10 0x70000004#32)) 0x70000004#32 [] ∧ wordLegal 0x70000004#32 = false ∧
    decode 0x70000003#32 = .ok (.work true true) := by
  unfold NextCommand; decide

/-- Each clause of the read map at the ends of its range: 7, 15, 17, 40, 41, 42, 16, 18, 31, 43. -/
theorem witness_HostReadReturnsMappedRegister :
    (∀ index, (sNext (.read index)).inbox = .read index :: []) ∧
    7 = (7 : Fin 8).val ∧ 15 = 8 + (7 : Fin 8).val ∧ 40 = 0x20 + Counter.discont.index.val ∧
    (16 = 0x10 ∨ (0x12 ≤ 16 ∧ 16 < 0x20) ∨ 0x2A < 16) ∧ (31 = 0x10 ∨ (0x12 ≤ 31 ∧ 31 < 0x20) ∨ 0x2A < 31) ∧
    (43 = 0x10 ∨ (0x12 ≤ 43 ∧ 43 < 0x20) ∨ 0x2A < 43) := ⟨fun _ => rfl, by decide⟩

theorem witness_HostWriteReachesOperandsOnly :
    (∀ index v, (sNext (.write index v)).inbox = .write index v :: []) ∧ 7 = (7 : Fin 8).val ∧
    (8 ≤ 8 ∧ 8 ≠ 0x10) ∧ (8 ≤ 17 ∧ 17 ≠ 0x10) := ⟨fun _ _ => rfl, by decide⟩

theorem witness_IdleBlockKeepsState : State.reset.inbox = [] := rfl

theorem witness_ExecIsOperateAtHw : (sNext (.read 0)).inbox = .read 0 :: [] := rfl

theorem witness_UnconfiguredOnlySetsStatus :
    State.reset.cfgValid = false ∧ Instr.work true true ≠ .reset ∧ Instr.work true true ≠ .configure := by decide

theorem witness_calendar : CalendarLegal cfgA := by unfold CalendarLegal; decide

theorem witness_ClosedFormCountsTicks : CalendarLegal cfgA ∧
    CalendarLegal { cfgA with syncPeriod := 0, syncOff := 0 } := by unfold CalendarLegal; decide

/-- Ticks 0 (in the pool) and 3 (the sync slot), and the closed gate. -/
theorem witness_SlotidxGivesOrdinal :
    State.reset.cfgValid = false ∧ sA.cfgValid = true ∧ CalendarLegal sA.cfg ∧
    slotIndexByCount sA.cfg 0 = some 0 ∧ slotIndexByCount sA.cfg 3 = none :=
  ⟨rfl, rfl, witness_calendar, by decide +kernel, by decide +kernel⟩

/-- The last legal subchannel index 4 and the first illegal one 5. -/
theorem witness_SubchoffGivesRange :
    State.reset.cfgValid = false ∧ sA.cfgValid = true ∧ sA.cfg.nSubch.toNat ≤ (5 : Byte).toNat ∧
    (4 : Byte).toNat < sA.cfg.nSubch.toNat := by decide +kernel

/-- Pairs (0, 0) and (5, 1) are refused, (5, 0) and (1, 4) are the ends of the legal range. -/
theorem witness_RivencGivesValue :
    State.reset.cfgValid = false ∧ sA.cfgValid = true ∧ (0 : Byte).toNat < 1 ∧
    sA.cfg.nSubch.toNat < (5 : Byte).toNat + (1 : Byte).toNat ∧
    (1 ≤ (5 : Byte).toNat ∧ (5 : Byte).toNat + (0 : Byte).toNat ≤ sA.cfg.nSubch.toNat) ∧
    (1 ≤ (1 : Byte).toNat ∧ (1 : Byte).toNat + (4 : Byte).toNat ≤ sA.cfg.nSubch.toNat) := by decide +kernel

/-- Values 14 and 15 are the last valid and the first invalid one of five subchannels. -/
theorem witness_RivdecInvertsBelowTriangle :
    State.reset.cfgValid = false ∧ sA.cfgValid = true ∧ 1 ≤ sA.cfg.nSubch.toNat ∧ sA.cfg.nSubch.toNat ≤ 20 ∧
    (14 : Byte).toNat < sA.cfg.nSubch.toNat * (sA.cfg.nSubch.toNat + 1) / 2 ∧
    sA.cfg.nSubch.toNat * (sA.cfg.nSubch.toNat + 1) / 2 ≤ (15 : Byte).toNat := by decide +kernel

theorem witness_RivRoundTrip : 1 ≤ 20 ∧ 20 + 0 ≤ 20 ∧ 1 ≤ 1 ∧ 1 + 0 ≤ 1 := by decide

/-- The ends `n = 1` and `n = 20`, the largest `riv` of each field, and two words that differ in reserved bits only. -/
theorem witness_UnpackInvertsPack :
    (0 : Byte).toNat < 2 ^ rivBits 1 ∧ (255 : Byte).toNat < 2 ^ rivBits 20 ∧
    (127 : Word).toNat / 2 ^ (15 - rivBits 20) = (0 : Word).toNat / 2 ^ (15 - rivBits 20) := by decide +kernel

theorem witness_CodewordDecodesToMessage :
    1 ≤ cfgA.nSubch.toNat ∧ cfgA.nSubch.toNat ≤ 20 ∧ (msgAlloc cfgA (msgOfWord 0x006A070B)).ok = true := by
  decide +kernel

theorem witness_AllZeroCodewordAccepted :
    (1 ≤ ({ cfgA with nSubch := 1 } : PoolCfg).nSubch.toNat ∧ ({ cfgA with nSubch := 1 } : PoolCfg).nSubch.toNat ≤ 20) ∧
    1 ≤ ({ cfgA with nSubch := 20 } : PoolCfg).nSubch.toNat ∧ ({ cfgA with nSubch := 20 } : PoolCfg).nSubch.toNat ≤ 20 := by
  decide

/-- A valid message word, the first word with a reserved bit, and one whose value 15 is not valid. -/
theorem witness_SciencGivesCodeword :
    State.reset.cfgValid = false ∧ sA.cfgValid = true ∧
    ((sAWith 0x006A018B 0 0 0 0).a[0].toNat < 2 ^ 25 ∧
      (msgAlloc cfgA (msgOfWord ((sAWith 0x006A018B 0 0 0 0).a[0]))).ok = true) ∧
    (sAWith 0x02000000 0 0 0 0).a[0].toNat ≥ 2 ^ 25 ∧
    (msgAlloc cfgA (msgOfWord ((sAWith 0x00000780 0 0 0 0).a[0]))).ok = false := by decide +kernel

/-- Parity words 0xFFFF and 0x10000, and a codeword for each of the three statuses. -/
theorem witness_ScidecReportsChecksumFirst :
    State.reset.cfgValid = false ∧ sA.cfgValid = true ∧
    (sAWith 0 0xFFFF 0 0 0).a[1].toNat < 2 ^ 16 ∧ 2 ^ 16 ≤ (sAWith 0 0x10000 0 0 0).a[1].toNat ∧
    (sciDecode Config.hw cfgA 0x01E00000 0).crcOk = false ∧
    ((sciDecode Config.hw cfgA 0x01E00000 0xD685).crcOk = true ∧
      (sciDecode Config.hw cfgA 0x01E00000 0xD685).rivOk = false) ∧
    (sciDecode Config.hw cfgA 0x6268D000 0x9357).crcOk = true ∧
    (sciDecode Config.hw cfgA 0x6268D000 0x9357).rivOk = true := by decide +kernel

theorem witness_ScanFirstValidWins : State.reset.cfgValid = false ∧ sA.cfgValid = true := by decide

theorem witness_ScanHasNoMemory : sA.cfg = (sAWith 1 2 3 4 5).cfg ∧ sA.asks = (sAWith 1 2 3 4 5).asks := by decide

theorem witness_ScannerMachineRunsLoop : 1 ≤ sA.cfg.nSubch.toNat := by decide

/-- Context 5 of five subchannels, a reserved bit, an invalid value. -/
theorem witness_CombineRefusesOperands :
    State.reset.cfgValid = false ∧ sA.cfgValid = true ∧ sA.cfg.nSubch.toNat ≤ (5 : Byte).toNat ∧
    2 ^ 25 ≤ (sAWith 0x02000000 0 0 0 0).a[0].toNat ∧
    (msgAlloc cfgA (msgOfWord ((sAWith 0x00000780 0 0 0 0).a[0]))).ok = false := by decide +kernel

/-- A first generation, whose earlier soft information is dropped. -/
theorem witness_CombineFollowsResetPolicy_first : ∃ (m : SciMsg) (size : Word) (soft : SoftVec),
    let s := sAWith 0x006A020B 0x3366 10 44 7
    s.cfgValid = true ∧ (4 : Byte).toNat < s.cfg.nSubch.toNat ∧ (4 : Byte).toNat < 20 ∧ (s.a[0]).toNat < 2 ^ 25 ∧
    m = msgOfWord (s.a[0]) ∧ (msgAlloc s.cfg m).ok = true ∧ size = occasionTbs Config.hw s.cfg m ∧
    soft = Config.hw.dataRx s.asks (s.a[2]) m (s.a[1]) (s.a[3]) ∧ m.rti = false :=
  ⟨_, _, _, rfl, by decide, by decide, by decide, rfl, by decide +kernel, rfl, rfl, by decide⟩

/-- A second generation that finds the first one's soft information under its own size. -/
theorem witness_CombineFollowsResetPolicy_second : ∃ (s : State) (m : SciMsg) (size : Word),
    s.cfgValid = true ∧ (4 : Byte).toNat < s.cfg.nSubch.toNat ∧ (s.a[0]).toNat < 2 ^ 25 ∧
    m = msgOfWord (s.a[0]) ∧ (msgAlloc s.cfg m).ok = true ∧ size = occasionTbs Config.hw s.cfg m ∧
    m.rti = true ∧ (s.pair 4).comb.tbs = some size.toNat ∧ (s.pair 4).comb.acc = [[6]] :=
  ⟨(sAWith 0x016A020B 0xBACF 14 45 7).setPair 4
      { fresh := .empty
        comb := { tbs := some (occasionTbs Config.hw cfgA (msgOfWord 0x016A020B)).toNat, acc := [[6]], ok := false } },
    _, _, rfl, by decide, by decide, rfl, by decide +kernel, rfl, by decide,
    by rw [State.pair_setPair_self _ (by decide)]; rfl, by rw [State.pair_setPair_self _ (by decide)]⟩

/-- A second generation in a context that was never used. -/
theorem witness_CombineFollowsResetPolicy_alone :
    (msgOfWord ((sAWith 0x016A020B 0 0 0 0).a[0])).rti = true ∧
    ((sAWith 0x016A020B 0 0 0 0).pair 4).comb.tbs = none := by decide +kernel

theorem witness_CombineFrame : ∃ t, exec (.combine 4) sA = .next t := ⟨_, rfl⟩

/-- The two occasions of program P4: qualities 6 and 7, which decode only together. -/
theorem witness_TwoGenerationCoverage :
    let s := sAWith 0x006A020B 0x3366 10 44 7
    let u := { opCombine fixture 4 s with a := #v[0x016A020B, 0xBACF, 14, 45, 7, 0, 0, 0] }
    (s.cfgValid, u.cfgValid, decide (u.cfg = s.cfg), combineOperandsOk 4 s, combineOperandsOk 4 u) =
      (true, true, true, true, true) ∧
    (msgOfWord (s.a[0])).rti = false ∧ (msgOfWord (u.a[0])).rti = true ∧
    occasionTbs fixture s.cfg (msgOfWord (s.a[0])) = 840 ∧ occasionTbs fixture s.cfg (msgOfWord (u.a[0])) = 840 ∧
    fixture.dataRx s.asks (s.a[2]) (msgOfWord (s.a[0])) (s.a[1]) (s.a[3]) = [6] ∧
    fixture.dataRx u.asks (u.a[2]) (msgOfWord (u.a[0])) (u.a[1]) (u.a[3]) = [7] ∧
    (fixture.fecDec [[6]] 840).2 = false ∧ (fixture.fecDec [[6], [7]] 840).2 = true ∧
    u.pair 4 = (opCombine fixture 4 s).pair 4 := by decide +kernel

/-- Every record has a process 0 and a sub-process 0. -/
theorem address_zero : (0 : Byte).toNat ≤ Config.hw.nProc ∧ (0 : Byte).toNat < Config.hw.nTb := by
  simp [Params.nTb]

/-- A pid of 255 is out of range of every record, and so is a sub-process index of 2. -/
theorem witness_BadAddressIsCountedDrop :
    sA.cfgValid = true ∧ Config.hw.nProc < (255 : Byte).toNat ∧ Config.hw.nTb ≤ (2 : Byte).toNat := by
  have h1 := Config.hw.nProcPred.isLt
  have h2 := Config.hw.nTbPred.isLt
  refine ⟨rfl, ?_, ?_⟩
  · show Config.hw.nProcPred.val + 1 < 255
    omega
  · show Config.hw.nTbPred.val + 1 ≤ 2
    omega

theorem witness_NewgrantRefusesReservedBits :
    (sAWith 0 0 0x20 0 0).cfgValid = true ∧ (0 : Byte).toNat ≤ Config.hw.nProc ∧ (0 : Byte).toNat < Config.hw.nTb ∧
    32 ≤ ((sAWith 0 0 0x20 0 0).a[2]).toNat := ⟨rfl, address_zero.1, address_zero.2, by decide⟩

/-- The last grant of the witnesses below: a first generation at slot 10 with gap 4. -/
def gLast : Grant :=
  { kind := .sidelink, ndiPresent := true, ndi := true, tbs := 840, slot := 10, gap := 4, rti := false }

/-- A sub-process whose first decode failed. -/
def spKo : SubProc :=
  { state := .decodedKo, first := false, ack := false, nRetx := 0, dupCnt := 0, tbs := 840, last := some gLast,
    payload := 0, sb := { tbs := some 840, acc := [], ok := false } }

/-- The same sub-process waiting for a decode, with a buffer held. -/
def spWait : SubProc := { spKo with state := .awaitingDecode, payload := 7 }

/-- The same sub-process after a delivery. -/
def spOk : SubProc := { spKo with state := .decodedOk, ack := true }

/-- Operands of a grant, and sub-process (0, 0) as given. -/
def sSub (sp : SubProc) (tbs slot gntw : Word) : State := (sAWith tbs slot gntw 0 0).setSub 0 0 sp

theorem sub_sSub (sp : SubProc) (tbs slot gntw : Word) : (sSub sp tbs slot gntw).sub 0 0 = sp :=
  State.sub_setSub_self _ (by decide) (by decide) sp

theorem ready_sSub (sp : SubProc) (tbs slot gntw : Word) (h : gntw.toNat < 32) :
    GrantReady (sSub sp tbs slot gntw) 0 0 := ⟨rfl, address_zero.1, address_zero.2, h⟩

/-- A first-ever grant without the flag, and a flagged grant that finds a held buffer. -/
theorem witness_NewTransmissionBeginsLifecycle :
    (GrantReady (sSub .reset 840 10 4) 0 0 ∧
      ¬ Repeats ((sSub .reset 840 10 4).sub 0 0) (grantOfOperands .sidelink false false 840 10 4) ∧
      StartsNew ((sSub .reset 840 10 4).sub 0 0) (grantOfOperands .sidelink false false 840 10 4)) ∧
    GrantReady (sSub spWait 840 18 4) 0 0 ∧
    ¬ Repeats ((sSub spWait 840 18 4).sub 0 0) (grantOfOperands .sidelink true true 840 18 4) ∧
    StartsNew ((sSub spWait 840 18 4).sub 0 0) (grantOfOperands .sidelink true true 840 18 4) := by
  refine ⟨⟨ready_sSub _ _ _ _ (by decide), ?_, ?_⟩, ready_sSub _ _ _ _ (by decide), ?_, ?_⟩ <;>
    simp [sub_sSub, Repeats, StartsNew, SubProc.reset, spWait, spKo, grantOfOperands]

theorem continues_gLast (sp : SubProc) (h : sp.last = some gLast) :
    Continues sp (grantOfOperands .sidelink true false 840 14 0x14) := ⟨gLast, h, by decide, by decide⟩

/-- Scenario D: a second generation at slot 14 with gap 5. -/
theorem witness_DiscontinuityForcesReset :
    GrantReady (sSub spKo 840 14 0x15) 0 0 ∧ spKo.last = some gLast ∧
    ¬ Repeats spKo (grantOfOperands .sidelink true false 840 14 0x15) ∧
    ¬ StartsNew spKo (grantOfOperands .sidelink true false 840 14 0x15) ∧
    ¬ Continues spKo (grantOfOperands .sidelink true false 840 14 0x15) ∧
    spKo = (sSub spKo 840 14 0x15).sub 0 0 := by
  refine ⟨ready_sSub _ _ _ _ (by decide), rfl, by simp [Repeats, spKo], by simp [StartsNew, spKo, grantOfOperands], ?_,
    (sub_sSub ..).symm⟩
  rintro ⟨l, hl, -, h⟩
  cases hl
  revert h
  decide

/-- A related grant of another size, as in V-HE row 18, with a buffer held. -/
theorem witness_DiscontinuityForcesReset_resized :
    GrantReady (sSub spWait 900 14 0x14) 0 0 ∧ spWait.last = some gLast ∧
    ¬ Repeats spWait (grantOfOperands .sidelink true false 900 14 0x14) ∧
    ¬ StartsNew spWait (grantOfOperands .sidelink true false 900 14 0x14) ∧
    Continues spWait (grantOfOperands .sidelink true false 900 14 0x14) ∧
    spWait.sb.tbs ≠ some (grantOfOperands .sidelink true false 900 14 0x14).tbs.toNat ∧
    spWait = (sSub spWait 900 14 0x14).sub 0 0 :=
  ⟨ready_sSub _ _ _ _ (by decide), rfl, by simp [Repeats, spWait, spKo], by simp [StartsNew, spWait, spKo, grantOfOperands],
    ⟨gLast, rfl, by decide, by decide⟩, by decide, (sub_sSub ..).symm⟩

/-- Scenario C: the second generation at slot 14 with gap 4, without and with a held buffer. -/
theorem witness_RetransmissionKeepsLifecycle (sp : SubProc) (h : sp = spKo ∨ sp = spWait) :
    GrantReady (sSub sp 840 14 0x14) 0 0 ∧
    ¬ Repeats ((sSub sp 840 14 0x14).sub 0 0) (grantOfOperands .sidelink true false 840 14 0x14) ∧
    ¬ StartsNew ((sSub sp 840 14 0x14).sub 0 0) (grantOfOperands .sidelink true false 840 14 0x14) ∧
    Continues ((sSub sp 840 14 0x14).sub 0 0) (grantOfOperands .sidelink true false 840 14 0x14) ∧
    ((sSub sp 840 14 0x14).sub 0 0).sb.tbs = some (grantOfOperands .sidelink true false 840 14 0x14).tbs.toNat := by
  refine ⟨ready_sSub _ _ _ _ (by decide), ?_, ?_, ?_, ?_⟩ <;> rw [sub_sSub] <;> rcases h with rfl | rfl
  all_goals first
    | exact continues_gLast _ rfl
    | decide
    | simp [Repeats, StartsNew, spKo, spWait, grantOfOperands]

/-- The second generation of a delivered block. -/
theorem witness_DuplicateIsNotDecodedAgain :
    GrantReady (sSub spOk 840 14 0x14) 0 0 ∧
    Repeats ((sSub spOk 840 14 0x14).sub 0 0) (grantOfOperands .sidelink true false 840 14 0x14) := by
  refine ⟨ready_sSub _ _ _ _ (by decide), ?_⟩
  rw [sub_sSub]
  exact ⟨rfl, rfl, gLast, rfl, by unfold SigEqual; decide⟩

theorem witness_NewgrantFrame : ∃ t, exec (.newgrant 0 0 .sidelink true true) sA = .next t := ⟨_, rfl⟩

/-- The default bound 4: repetition 4 is re-signalled, repetition 5 resets. -/
theorem witness_DuplicateBoundIsReached :
    (sSub spOk 840 14 0x14).cfgValid = true ∧ (0 : Byte).toNat ≤ fixture.nProc ∧ (0 : Byte).toNat < fixture.nTb ∧
    ((sSub spOk 840 14 0x14).a[2]).toNat < 32 ∧ ((sSub spOk 840 14 0x14).sub 0 0).dupCnt = 0 ∧
    fixture.dupLimit < 2 ^ 32 - 1 ∧
    Repeats ((sSub spOk 840 14 0x14).sub 0 0) (grantOfOperands .sidelink true false 840 14 0x14) ∧
    (1 ≤ 4 ∧ 4 ≤ fixture.dupLimit) ∧ 1 ≤ 5 ∧ 5 ≤ fixture.dupLimit + 1 := by
  refine ⟨rfl, by decide, by decide, by decide, by rw [sub_sSub]; rfl, by decide,
    witness_DuplicateIsNotDecodedAgain.2, by decide, by decide, by decide⟩

/-- A sub-process that waits for a decode, and one that does not; addresses out of range; no configuration. -/
theorem witness_TbdecodedDeliversOrDiscards :
    (sSub spWait 0 0 0).cfgValid = true ∧ (0 : Byte).toNat ≤ Config.hw.nProc ∧ (0 : Byte).toNat < Config.hw.nTb ∧
    ((sSub spWait 0 0 0).sub 0 0).state = .awaitingDecode ∧ ((sSub spWait 0 0 0).sub 0 0).last = some gLast ∧
    ((sSub spKo 0 0 0).sub 0 0).state ≠ .awaitingDecode ∧
    (sA.cfgValid = true ∧ Config.hw.nProc < (255 : Byte).toNat ∧ Config.hw.nTb ≤ (2 : Byte).toNat) ∧
    State.reset.cfgValid = false := by
  refine ⟨rfl, address_zero.1, address_zero.2, ?_, ?_, ?_, witness_BadAddressIsCountedDrop, rfl⟩ <;>
    rw [sub_sSub] <;> decide

/-- The last process address of the array, in its reset value. -/
theorem witness_NewgrantTransitions :
    254 < 255 ∧ 1 < 2 ∧ PayloadOwned (State.reset.sub 254 1) ∧ SubRecords (State.reset.sub 254 1) := by
  refine ⟨by decide, by decide, ?_, ?_⟩
  · simp [PayloadOwned, SubProc.reset]
  · constructor <;> simp [SubProc.reset, SoftBuffer.empty]

theorem witness_BuildgrantTakesSmallestPair : sA.cfgValid = true ∧ sA.cfg.nSubch.toNat ≤ 20 := by decide

theorem witness_BuildgrantRepeatsRemembered : sA.cfgValid = true ∧ sA.txLast = none ∧
    ({ sA with txLast := some (msgOfWord 0x006A0180) } : State).txLast = some (msgOfWord 0x006A0180) := by decide

/-- A remembered message for both subchannels of a pool of two of 100 PRBs: its `riv` is 2, and it has data PRBs whatever
`CTRL_PRB` is. -/
theorem witness_BuildgrantRepeatsRemembered_allocation :
    let c : PoolCfg := { cfgA with nSubch := 2, width := 100 }
    let s : State := { sA with cfg := c, txLast := some { msgOfWord 0 with riv := 2 } }
    s.cfgValid = true ∧ s.txLast = some { msgOfWord 0 with riv := 2 } ∧ 1 ≤ 2 ∧ 2 + 0 ≤ s.cfg.nSubch.toNat ∧
    (2 : Byte).toNat = rivEncode s.cfg.nSubch.toNat 2 0 ∧ 1 ≤ dataPrbs Config.hw s.cfg 2 := by
  refine ⟨rfl, rfl, by decide, by decide, by decide, ?_⟩
  have h : Config.hw.ctrlPrb ≤ 100 := by unfold Params.ctrlPrb; omega
  unfold dataPrbs
  have e : (2 * (100 : Byte).toNat : Nat) = 200 := by decide
  simp only [e]
  omega

/-- One subchannel of one PRB at PRB 0 fits every carrier; a subchannel count of 21 fits none. -/
theorem witness_ConfigureReplacesWhole :
    cfgLegal Config.hw (cfgOfOperands 0x01000101 0 1 0 0 0) = true ∧
    cfgLegal Config.hw (cfgOfOperands 0x01000115 0 1 0 0 0) = false := by
  have h1 : cfgOfOperands 0x01000101 0 1 0 0 0 =
      { bitmapLen := 1, bitmap := [true], nSubch := 1, width := 1, startOff := 0, syncPeriod := 0, syncOff := 0 } := by
    decide
  have h2 : (cfgOfOperands 0x01000115 0 1 0 0 0).nSubch = 21 := by decide
  constructor
  · rw [h1]
    simp [cfgLegal, nSubchMax, widthMax, bitmapMax, Params.nprbCarrier]
  · rw [cfgLegal, h2]
    simp [nSubchMax]

/-- A tick equal to the last worked one; the sync slot, tick 3. -/
theorem witness_WorkRefusesOldTicksAndSkipsOthers :
    let s := { sAWith 5 0 0 0 0 with lastTick := some 5 }
    (s.cfgValid = true ∧ s.lastTick = some 5 ∧ (s.a[0]).toNat ≤ (5 : Word).toNat) ∧
    (sAWith 3 0 0 0 0).cfgValid = true ∧ (sAWith 3 0 0 0 0).lastTick = none ∧
    slotIndex (sAWith 3 0 0 0 0).cfg ((sAWith 3 0 0 0 0).a[0]).toNat = none := by decide +kernel

theorem witness_WorkCompletesTick :
    (sAWith 18 0 0 0 0).cfgValid = true ∧ (sAWith 18 0 0 0 0).lastTick = none ∧
    slotIndex (sAWith 18 0 0 0 0).cfg ((sAWith 18 0 0 0 0).a[0]).toNat = some 10 := by decide +kernel

/-- The clauses about the open answers all arise, here under the fixtures: a hit, an accepted grant, a built grant, and a
request turned away in the other node's slot. -/
theorem witness_WorkCompletesTick_answers :
    ((scan fixture 10 (sAWith 18 0 0 0 0)).hit.map fun h =>
      (newGrant fixture (rxPid fixture 10 h.msg.rti h.msg.gap) 0 (rxGrant h.msg h.tbs 10)
        (scan fixture 10 (sAWith 18 0 0 0 0)).state).act.decodeEnabled) = some true ∧
    (scan fixture 11 (sAWith 19 0 0 0 0)).hit = none ∧
    (buildGrant fixture 10 800 false (sAWith 18 800 0 0 0)).msg.isSome = true ∧
    (buildGrant fixture 11 800 false (sAWith 19 800 0 0 0)).msg = none := by decide +kernel

theorem witness_WorkIsComponentSequence :
    ConfigLegal fixture (sAWith 18 800 0 0 0) ∧ TxLastBuilt (sAWith 18 800 0 0 0) ∧
    (sAWith 18 800 0 0 0).cfgValid = true ∧ (sAWith 18 800 0 0 0).lastTick = none ∧
    slotIndex (sAWith 18 800 0 0 0).cfg ((sAWith 18 800 0 0 0).a[0]).toNat = some 10 :=
  ⟨fun _ => ⟨by decide +kernel, by decide⟩, (fun _ h => by cases h), rfl, rfl, by decide +kernel⟩

theorem witness_GenerationsShareProcess : (msgOfWord 0x006A020B).rti = false := by decide

/-- A state that meets every invariant, other than the one after power-on: tick 3 has been worked, a transmit event
with that tick stands in the history, and a read of STATUS is pending. -/
def sWorked : State :=
  { State.reset with
    lastTick := some 3
    inbox := [.read 0x11]
    history := [.txOut 3 0 0 { tbs := 0, qm := .two, nPrb := 0, firstPrb := 0 }] }

theorem sub_sWorked (p tb : Nat) : sWorked.sub p tb = .reset := State.reset_sub p tb

theorem witness_EveryStepKeepsInvariant : sWorked.Inv Config.hw ∧ ∃ t, step sWorked = .next t := by
  refine ⟨⟨?_, ⟨rfl, rfl⟩, ⟨.ok, rfl⟩, ?_, ?_, ?_, ?_, ?_, ?_⟩, _, rfl⟩
  · intro h; cases h
  · intro p tb; rw [sub_sWorked]; simp [PayloadOwned, SubProc.reset]
  · intro p tb; rw [sub_sWorked]; constructor <;> simp [SubProc.reset, SoftBuffer.empty]
  · intro p tb; rw [sub_sWorked]; simp [SubProc.reset]
  · intro c
    have : sWorked.pair c = .empty := State.reset_pair c
    rw [this]
    constructor <;> simp [BufferPair.empty, SoftBuffer.empty]
  · intro m h; cases h
  · intro m h; cases h

theorem witness_EveryStepKeepsPayloadOwnership : PayloadsOwned sWorked ∧ ∃ t, step sWorked = .next t :=
  ⟨witness_EveryStepKeepsInvariant.1.payloads, _, rfl⟩

/-- The same state at a position before its event and at one after it, and RESET pending. -/
theorem witness_TransmitTicksIncrease :
    (0 ≤ sWorked.history.length ∧ EpochOrdered 0 sWorked) ∧ (1 ≤ sWorked.history.length ∧ EpochOrdered 1 sWorked) ∧
    (∀ rest, ¬ NextCommand sWorked (encode .reset) rest) ∧ (∃ t, step sWorked = .next t) ∧
    NextCommand { sWorked with inbox := [.write cmdIndex (encode .reset)] } (encode .reset) [] ∧
    ∃ t, step { sWorked with inbox := [.write cmdIndex (encode .reset)] } = .next t := by
  refine ⟨⟨by decide, by simp [sWorked, txTicks], ?_⟩, ⟨by decide, by simp [sWorked, txTicks], by simp [sWorked, txTicks]⟩,
    ?_, ⟨_, rfl⟩, rfl, _, rfl⟩
  · intro t h
    have : t = 3 := by simpa [sWorked, txTicks] using h
    exact ⟨3, rfl, by rw [this]; decide⟩
  · intro rest h
    simp [NextCommand, sWorked] at h

theorem witness_OnlyWorkTransmits :
    (∃ t, exec .configure sA = .next t) ∧ ∀ x y, Instr.configure ≠ .work x y := ⟨⟨_, rfl⟩, by decide⟩

theorem witness_HistoryOnlyGrows : ∃ t, step sWorked = .next t := ⟨_, rfl⟩

theorem witness_OperationsKeepOperands : ∃ t, exec (.work true true) sA = .next t := ⟨_, rfl⟩

theorem witness_OnlyConfigureWritesConfiguration :
    (∃ t, exec .reset sA = .next t) ∧ Instr.reset ≠ .configure := ⟨⟨_, rfl⟩, by decide⟩

theorem witness_BuffersHaveTheirWriters : ∃ t, exec .scan sA = .next t := ⟨_, rfl⟩

end Sys2Proof.Tests
end

namespace Sys2Proof.Machine

/-! ### The two dispatch tables agree: `exec` is `operate`, and `step` is `access`, at the opaque record -/

/-- The two dispatch tables have the same arm for every operation (R86). -/
theorem exec_eq_operate (i : Instr) (s : State) : exec i s = .next (operate Config.hw i s) := by
  cases i <;> rfl

/-- A command word has the same effect through `step`'s path as through the host's access to CMD, legal or not
(R66, R87). -/
theorem runCommand_eq_access (w : Word) (s : State) :
    runCommand w s = .next (access Config.hw (.write cmdIndex w) s) := by
  cases hdec : decode w with
  | ok i => simp [runCommand, access, hdec, exec_eq_operate]
  | error e => simp [runCommand, access, hdec]

/-- With an access pending, the step is that access (R61, R66). -/
theorem step_eq_access {s : State} {x : HostAccess} {rest : List HostAccess} (h : s.inbox = x :: rest) :
    step s = .next (access Config.hw x { s with inbox := rest }) := by
  cases x with
  | read index => simp [step, access, h]
  | write index v =>
    by_cases hcmd : index = cmdIndex
    · subst hcmd
      simp [step, h, runCommand_eq_access]
    · simp [step, access, h, hcmd]

/-- Settles O11: `exec` by its arms, `step` by the kind of the pending access. -/
theorem execIsOperateAtHw : Obligations.ExecIsOperateAtHw :=
  ⟨exec_eq_operate, fun _ _ _ => step_eq_access⟩

end Sys2Proof.Machine

namespace Sys2Proof.Machine

/-! ### What an operation can do to the state, said once -/

/-- The end of an operation: its result registers and the code in STATUS (R22, R24). -/
def State.answer (s : State) (r : Vector Word 8) (st : Status) : State := { s with r := r, status := st.word }

theorem State.finish_eq_answer (s : State) (st : Status) : s.finish st = s.answer s.r st := rfl

theorem State.setR_answer (s : State) (i : Fin 8) (v : Word) (r : Vector Word 8) (st : Status) :
    (s.setR i v).answer r st = s.answer r st := rfl

/-- Where the stages of a WORK begin: the tick recorded, the slot index in `R0` (R254, R255). -/
def State.workStarted (s : State) (tick slot : Word) : State := { s with lastTick := some tick }.setR 0 slot

/-- What operation `i` can make of the state `s`, its result registers and STATUS aside: `Effect C s i u`. A query, a
closed configuration gate and a refused operand leave the state as it is; a bad process address is counted (both stand
here for every operation); the rest is the work of the unit that the operation belongs to. -/
inductive Effect (C : Config) (s : State) : Instr → State → Prop where
  | unchanged {i : Instr} : Effect C s i s
  | badAddress {i : Instr} : Effect C s i (s.count .badPid)
  | reset : Effect C s .reset (opReset C s)
  | configure (legal : cfgLegal C (operandCfg s) = true) :
      Effect C s .configure { s with cfg := operandCfg s, cfgValid := true }.dropInFlight
  | scan : Effect C s .scan (scan C (s.opA 0) s).state
  | combine {ctx : Byte} (m : SciMsg) (sid slot ce handle : Word) :
      Effect C s (.combine ctx) (combine C ctx.toNat m sid slot ce handle s).state
  | grant {pid tb : Byte} {kind : Kind} {ndiPresent ndi : Bool} (g : Grant)
      (inRange : addressInRange C pid.toNat tb.toNat = true) :
      Effect C s (.newgrant pid tb kind ndiPresent ndi) (newGrant C pid.toNat tb.toNat g s).state
  | delivery {pid tb : Byte} {ack : Bool} (inRange : addressInRange C pid.toNat tb.toNat = true) :
      Effect C s (.tbdecoded pid tb ack) (tbDecoded pid.toNat tb.toNat ack s).state
  | build {rti : Bool} (slot bits : Word) (configured : s.cfgValid = true) :
      Effect C s (.buildgrant rti) (buildGrant C slot bits rti s).state
  | workOutsidePool {txReq txRti : Bool} (tick : Word) :
      Effect C s (.work txReq txRti) { s with lastTick := some tick }
  | workInPool (txReq txRti : Bool) (tick slot : Word) (configured : s.cfgValid = true) :
      Effect C s (.work txReq txRti)
        (transmitStage C tick slot txReq txRti (receiveStage C slot (s.workStarted tick slot)))

/-- The results of a grant are result registers and STATUS (R195). -/
theorem GrantOut.results_eq_answer (out : GrantOut) : ∃ r, out.results = out.state.answer r out.status := by
  unfold GrantOut.results
  split <;> exact ⟨_, rfl⟩

/-- Operation `i` can end in `t` when it starts in `s`: one of its effects, then its results and a listed code. -/
def Ends (C : Config) (i : Instr) (s t : State) : Prop := ∃ u r st, Effect C s i u ∧ t = u.answer r st

theorem Ends.of_effect {C : Config} {i : Instr} {s u : State} (h : Effect C s i u) (r : Vector Word 8) (st : Status) :
    Ends C i s (u.answer r st) := ⟨u, r, st, h, rfl⟩

/-- An operation that only answers. -/
theorem Ends.query {C : Config} {i : Instr} {s : State} (r : Vector Word 8) (st : Status) :
    Ends C i s (s.answer r st) := .of_effect .unchanged r st

/-- A gated operation ends with `CFG_INVALID`, or as its body does in a configured block (R280). -/
theorem Ends.gated {C : Config} {i : Instr} {s : State} {go : State → State}
    (h : s.cfgValid = true → Ends C i s (go s)) : Ends C i s (s.whenConfigured go) := by
  rcases s.whenConfigured_cases go with ⟨-, e⟩ | ⟨hv, e⟩ <;> rw [e]
  · exact .query s.r _
  · exact h hv

/-- Every operation ends by one of its effects (R86, R270). -/
theorem operate_ends (C : Config) (i : Instr) (s : State) : Ends C i s (operate C i s) := by
  cases i with
  | reset => exact .of_effect .reset s.r .ok
  | configure =>
    simp only [operate, opConfigure]
    split
    · exact .of_effect (.configure ‹_›) _ _
    · exact .query _ _
  | slotidx =>
    simp only [operate, opSlotidx]
    refine .gated fun _ => ?_
    split <;> exact .query _ _
  | subchoff idx =>
    simp only [operate, opSubchoff]
    refine .gated fun _ => ?_
    split <;> exact .query _ _
  | rivenc len start =>
    simp only [operate, opRivenc]
    refine .gated fun _ => ?_
    split <;> exact .query _ _
  | rivdec riv =>
    simp only [operate, opRivdec]
    refine .gated fun _ => ?_
    split <;> exact .query _ _
  | scienc =>
    simp only [operate, opScienc]
    refine .gated fun _ => ?_
    split <;> exact .query _ _
  | scidec =>
    simp only [operate, opScidec]
    refine .gated fun _ => ?_
    split <;> exact .query _ _
  | scan =>
    simp only [operate, opScan, State.finish_eq_answer, State.setR_answer]
    refine .gated fun _ => ?_
    split <;> exact .of_effect .scan _ _
  | combine ctx =>
    simp only [operate, opCombine, State.finish_eq_answer, State.setR_answer]
    refine .gated fun _ => ?_
    split
    · exact .of_effect (.combine _ _ _ _ _) _ _
    · exact .query _ _
  | newgrant pid tb kind ndiPresent ndi =>
    simp only [operate, opNewgrant]
    refine .gated fun _ => ?_
    split
    · split
      · obtain ⟨r, e⟩ := GrantOut.results_eq_answer (newGrant C pid.toNat tb.toNat
          (grantOfOperands kind ndiPresent ndi (s.opA 0) (s.opA 1) (s.opA 2)) s)
        exact e ▸ .of_effect (.grant _ ‹_›) _ _
      · exact .query _ _
    · exact .of_effect .badAddress _ _
  | tbdecoded pid tb ack =>
    simp only [operate, opTbdecoded]
    refine .gated fun _ => ?_
    split
    · exact .of_effect (.delivery ‹_›) _ _
    · exact .of_effect .badAddress _ _
  | buildgrant rti =>
    simp only [operate, opBuildgrant, State.grantResults, State.finish_eq_answer, State.setR_answer]
    refine .gated fun hv => ?_
    split <;> exact .of_effect (.build (s.opA 0) (s.opA 1) hv) _ _
  | work txReq txRti =>
    simp only [operate, opWork]
    refine .gated fun hv => ?_
    split
    · exact .query _ _
    · split
      · exact .of_effect (.workOutsidePool (s.opA 0)) _ _
      · exact .of_effect (.workInPool txReq txRti (s.opA 0) _ hv) _ _

end Sys2Proof.Machine

namespace Sys2Proof.Machine

/-! ### What an operation leaves alone, read off its effects -/

theorem Ends.exec {i : Instr} {s t : State} (h : exec i s = .next t) : Ends Config.hw i s t := by
  rw [exec_eq_operate] at h
  cases h
  exact operate_ends Config.hw i s

/-- Settles O58: no unit writes an operand register, so no effect does. -/
theorem operationsKeepOperands : Obligations.OperationsKeepOperands := by
  intro i s t h
  obtain ⟨u, r, st, hu, rfl⟩ := Ends.exec h
  change u.a = s.a
  cases hu with
  | unchanged | badAddress | reset | configure | workOutsidePool => rfl
  | scan => rw [scan_frame]
  | combine => rw [combine_frame]
  | grant => rw [newGrant_frame]
  | delivery => rw [tbDecoded_frame]
  | build => rw [buildGrant_frame]
  | workInPool => rw [transmitStage_frame, receiveStage_frame]; rfl

/-- Only CONFIGURE has an effect on the configuration and its valid bit (R26, R27). -/
theorem Effect.config_eq {C : Config} {i : Instr} {s u : State} (h : Effect C s i u) (hi : i ≠ .configure) :
    u.cfg = s.cfg ∧ u.cfgValid = s.cfgValid := by
  cases h with
  | unchanged | badAddress | reset | workOutsidePool => exact ⟨rfl, rfl⟩
  | configure => exact absurd rfl hi
  | scan => rw [scan_frame]; exact ⟨rfl, rfl⟩
  | combine => rw [combine_frame]; exact ⟨rfl, rfl⟩
  | grant => rw [newGrant_frame]; exact ⟨rfl, rfl⟩
  | delivery => rw [tbDecoded_frame]; exact ⟨rfl, rfl⟩
  | build => rw [buildGrant_frame]; exact ⟨rfl, rfl⟩
  | workInPool => rw [transmitStage_frame, receiveStage_frame]; exact ⟨rfl, rfl⟩

/-- Settles O59: results and STATUS aside, an operation is one of its effects. -/
theorem onlyConfigureWritesConfiguration : Obligations.OnlyConfigureWritesConfiguration := by
  intro i s t h hi
  obtain ⟨u, r, st, hu, rfl⟩ := Ends.exec h
  exact hu.config_eq hi

/-- COMBINE, WORK, CONFIGURE and RESET aside, no operation has an effect on the buffer pairs (R34). -/
theorem Effect.pairs_eq {C : Config} {i : Instr} {s u : State} (h : Effect C s i u) (hc : ∀ c, i ≠ .combine c)
    (hw : ∀ x y, i ≠ .work x y) (hcfg : i ≠ .configure) (hr : i ≠ .reset) : u.pairs = s.pairs := by
  cases h with
  | unchanged | badAddress | workOutsidePool => rfl
  | reset => exact absurd rfl hr
  | configure => exact absurd rfl hcfg
  | scan => rw [scan_frame]
  | combine => exact absurd rfl (hc _)
  | grant => rw [newGrant_frame]
  | delivery => rw [tbDecoded_frame]
  | build => rw [buildGrant_frame]
  | workInPool => exact absurd rfl (hw _ _)

/-- NEWGRANT, TBDECODED, WORK and RESET aside, no operation has an effect on the sub-processes (R36). -/
theorem Effect.procs_eq {C : Config} {i : Instr} {s u : State} (h : Effect C s i u)
    (hn : ∀ p tb k x y, i ≠ .newgrant p tb k x y) (ht : ∀ p tb x, i ≠ .tbdecoded p tb x) (hw : ∀ x y, i ≠ .work x y)
    (hr : i ≠ .reset) : u.procs = s.procs := by
  cases h with
  | unchanged | badAddress | configure | workOutsidePool => rfl
  | reset => exact absurd rfl hr
  | scan => rw [scan_frame]
  | combine => rw [combine_frame]
  | grant => exact absurd rfl (hn _ _ _ _ _)
  | delivery => exact absurd rfl (ht _ _ _)
  | build => rw [buildGrant_frame]
  | workInPool => exact absurd rfl (hw _ _)

/-- Settles O60: both writer lists, read off the effects. -/
theorem buffersHaveTheirWriters : Obligations.BuffersHaveTheirWriters := by
  intro i s t h
  obtain ⟨u, r, st, hu, rfl⟩ := Ends.exec h
  exact ⟨hu.pairs_eq, hu.procs_eq⟩

/-! ### The history grows -/

theorem Extends.isPrefix {x y : List Event} (h : Extends x y) : x <+: y := by
  obtain ⟨more, e, -⟩ := h
  exact ⟨more, e.symm⟩

theorem tbDecoded_isPrefix (p tb : Nat) (ack : Bool) (s : State) :
    s.history <+: (tbDecoded p tb ack s).state.history := by
  rcases tbDecoded_history p tb ack s with e | ⟨_, _, _, e⟩ | ⟨_, e⟩ <;> rw [e]
  · exact List.prefix_append _ _
  · exact List.prefix_append _ _

theorem receiveHit_isPrefix (C : Config) (slot : Word) (h : Hit) (s : State) :
    s.history <+: (receiveHit C slot h s).state.history := by
  have hg := (newGrant_extends C (rxPid C slot h.msg.rti h.msg.gap) 0 (rxGrant h.msg h.tbs slot) s).isPrefix
  simp only [receiveHit]
  split
  · exact hg.trans ((combine_extends ..).isPrefix.trans (tbDecoded_isPrefix ..))
  · exact hg

theorem receiveStage_isPrefix (C : Config) (slot : Word) (s : State) :
    s.history <+: (receiveStage C slot s).history := by
  have hs := (scan_extends C slot s).isPrefix
  simp only [receiveStage]
  split
  · exact hs
  · exact hs.trans (receiveHit_isPrefix C slot _ (((scan C slot s).state.setR 3 _).setR 5 _))

theorem transmitStage_isPrefix (C : Config) (tick slot : Word) (txReq txRti : Bool) (s : State) :
    s.history <+: (transmitStage C tick slot txReq txRti s).history := by
  have hb := (buildGrant_extends C slot (s.opA 1) txRti s).isPrefix
  simp only [transmitStage]
  split
  · split
    · exact hb.trans (List.prefix_append _ _)
    · exact hb
  · exact List.prefix_refl _

/-- No effect takes an entry of the history back, RESET's included (R45, R250). -/
theorem Effect.history_isPrefix {C : Config} {i : Instr} {s u : State} (h : Effect C s i u) :
    s.history <+: u.history := by
  cases h with
  | unchanged | badAddress | configure | workOutsidePool => exact List.prefix_refl _
  | reset => exact List.prefix_append _ _
  | scan => exact (scan_extends ..).isPrefix
  | combine => exact (combine_extends ..).isPrefix
  | grant => exact (newGrant_extends ..).isPrefix
  | delivery => exact tbDecoded_isPrefix ..
  | build => exact (buildGrant_extends ..).isPrefix
  | workInPool txReq txRti tick slot =>
    exact (receiveStage_isPrefix C slot (s.workStarted tick slot)).trans (transmitStage_isPrefix ..)

/-! ### What a step can do -/

/-- A step runs an operation, or it is the host's alone: then it writes the operand registers, the pending accesses and
the value read, and STATUS only for an illegal word (R61, R66, R87, R285). -/
theorem step_cases {s t : State} (h : step s = .next t) :
    (∃ i rest, Ends Config.hw i { s with inbox := rest } t) ∨
    (∃ a status inbox readData, (status = s.status ∨ status = Status.illegalCmd.word) ∧
      t = { s with a := a, status := status, inbox := inbox, readData := readData }) := by
  cases hin : s.inbox with
  | nil =>
    rw [step, hin] at h
    cases h
    exact .inr ⟨_, _, _, _, .inl rfl, rfl⟩
  | cons x rest =>
    rw [step_eq_access hin] at h
    cases h
    cases x with
    | read index => exact .inr ⟨_, _, _, _, .inl rfl, rfl⟩
    | write index v =>
      simp only [access, State.writeReg]
      split
      · split
        · exact .inl ⟨_, rest, operate_ends ..⟩
        · exact .inr ⟨_, _, _, _, .inr rfl, rfl⟩
      · split
        · exact .inr ⟨_, _, _, _, .inl rfl, rfl⟩
        · exact .inr ⟨_, _, _, _, .inl rfl, rfl⟩

/-- Settles O57: an operation extends the history, the host's accesses leave it. -/
theorem historyOnlyGrows : Obligations.HistoryOnlyGrows := by
  intro s t h
  have hp : s.history <+: t.history := by
    rcases step_cases h with ⟨i, rest, u, r, st, hu, rfl⟩ | ⟨_, _, _, _, -, rfl⟩
    · exact hu.history_isPrefix
    · exact List.prefix_refl _
  obtain ⟨more, e⟩ := hp
  exact ⟨more, e.symm⟩

end Sys2Proof.Machine

namespace Sys2Proof.Machine

/-! ### How a sub-process can move -/

/-- One move of a sub-process: what NEWGRANT, TBDECODED and RESET can make of it (R194 to R202, R250). -/
inductive SubMove (sp : SubProc) : SubProc → Prop where
  | duplicate : SubMove sp { sp with dupCnt := sp.dupCnt + 1 }
  | duplicateReset : SubMove sp (sp.cleared sp.tbs)
  | noBuffer (g : Grant) (noPayload : (recorded sp g).payload = 0) : SubMove sp (recorded sp g)
  | accepted (g : Grant) (h : Word) (held : h ≠ 0) :
      SubMove sp { recorded sp g with payload := h, state := .awaitingDecode }
  | delivered (awaited : sp.state = .awaitingDecode) :
      SubMove sp { sp with payload := 0, ack := true, dupCnt := 0, state := .decodedOk }
  | givenBack (awaited : sp.state = .awaitingDecode) :
      SubMove sp { sp with payload := 0, ack := false, state := .decodedKo }
  | reset : SubMove sp .reset

/-- Any number of moves: WORK makes up to two, a grant and its delivery (R255). -/
abbrev SubMoves : SubProc → SubProc → Prop := Relation.ReflTransGen SubMove

theorem State.sub_congr {s t : State} (h : t.procs = s.procs) (p tb : Nat) : t.sub p tb = s.sub p tb := by
  rw [State.sub, h, State.sub]

theorem newGrant_subMoves (C : Config) {p tb : Nat} (hp : p < 255) (ht : tb < 2) (g : Grant) (s : State) (q ub : Nat) :
    SubMoves (s.sub q ub) ((newGrant C p tb g s).state.sub q ub) := by
  by_cases h : (p, tb) = (q, ub)
  · cases h
    apply Relation.ReflTransGen.single
    rcases newGrant_cases C hp ht g s with
      ⟨-, -, -, -, e⟩ | ⟨-, -, -, -, e⟩ | ⟨-, h0, -, -, e⟩ | ⟨-, -, -, h0, e⟩ <;> rw [e]
    · exact .duplicateReset
    · exact .duplicate
    · exact .noBuffer g h0
    · exact .accepted g _ h0
  · rw [newGrant_sub_other C h]

/-- A decode that is not awaited moves nothing; an awaited one delivers the block or gives the buffer back (R200). -/
theorem tbDecoded_subMoves {p tb : Nat} (hp : p < 255) (ht : tb < 2) (ack : Bool) (s : State) (q ub : Nat) :
    SubMoves (s.sub q ub) ((tbDecoded p tb ack s).state.sub q ub) := by
  by_cases h : (p, tb) = (q, ub)
  · cases h
    unfold tbDecoded
    split
    · apply Relation.ReflTransGen.single
      cases ack
      · rw [if_neg Bool.false_ne_true, giveBack, State.sub_setSub_self _ hp ht]
        exact .givenBack ‹_›
      · rw [if_pos rfl, deliver, State.sub_setSub_self _ hp ht]
        exact .delivered ‹_›
    · rfl
  · rw [tbDecoded_sub_other h]

theorem rxPid_lt (C : Config) (slot : Word) (rti : Bool) (gap : BitVec 4) : rxPid C slot rti gap < 255 := by
  have h : rxPid C slot rti gap < C.nProc := Nat.mod_lt _ (Nat.succ_pos _)
  have := C.nProcPred.isLt
  unfold Params.nProc at h
  omega

theorem receiveHit_subMoves (C : Config) (slot : Word) (h : Hit) (s : State) (p tb : Nat) :
    SubMoves (s.sub p tb) ((receiveHit C slot h s).state.sub p tb) := by
  have hp := rxPid_lt C slot h.msg.rti h.msg.gap
  have hg := newGrant_subMoves C hp two_pos (rxGrant h.msg h.tbs slot) s p tb
  simp only [receiveHit]
  split
  · refine hg.trans ?_
    rw [← State.sub_congr (combine_procs C h.idx h.msg h.sid slot h.ce _ _)]
    exact tbDecoded_subMoves hp two_pos _ _ p tb
  · exact hg

theorem receiveStage_subMoves (C : Config) (slot : Word) (s : State) (p tb : Nat) :
    SubMoves (s.sub p tb) ((receiveStage C slot s).sub p tb) := by
  have hs : (scan C slot s).state.procs = s.procs := by rw [scan_frame]
  rw [← State.sub_congr hs]
  simp only [receiveStage]
  split
  · rfl
  · exact receiveHit_subMoves C slot _ (((scan C slot s).state.setR 3 _).setR 5 _) p tb

/-- Every effect moves each sub-process by the moves above, most by none (R36). -/
theorem Effect.subMoves {C : Config} {i : Instr} {s u : State} (h : Effect C s i u) (p tb : Nat) :
    SubMoves (s.sub p tb) (u.sub p tb) := by
  cases h with
  | unchanged | badAddress | configure | workOutsidePool => exact .refl
  | reset =>
    have e : (opReset C s).sub p tb = .reset := State.reset_sub p tb
    rw [e]
    exact .single .reset
  | scan => rw [scan_frame]; exact .refl
  | combine => rw [combine_frame]; exact .refl
  | grant g inRange =>
    obtain ⟨hp, ht⟩ := addressInRange_bounds inRange
    exact newGrant_subMoves C hp ht g s p tb
  | delivery inRange =>
    obtain ⟨hp, ht⟩ := addressInRange_bounds inRange
    exact tbDecoded_subMoves hp ht _ s p tb
  | build => rw [buildGrant_frame]; exact .refl
  | workInPool txReq txRti tick slot =>
    rw [transmitStage_frame]
    exact receiveStage_subMoves C slot (s.workStarted tick slot) p tb

theorem SubMoves.keeps {P : SubProc → Prop} (hP : ∀ {sp sp'}, SubMove sp sp' → P sp → P sp') {sp sp' : SubProc}
    (h : SubMoves sp sp') (hs : P sp) : P sp' := by
  induction h with
  | refl => exact hs
  | tail _ m ih => exact hP m ih

/-- What every move of a sub-process keeps, every effect keeps of all sub-processes. -/
theorem Effect.keeps_subs {P : SubProc → Prop} (hP : ∀ {sp sp'}, SubMove sp sp' → P sp → P sp') {C : Config} {i : Instr}
    {s u : State} (h : Effect C s i u) (hs : ∀ p tb, P (s.sub p tb)) (p tb : Nat) : P (u.sub p tb) :=
  (h.subMoves p tb).keeps hP (hs p tb)

/-! ### What steps (2) and (3) of a grant leave -/

theorem recorded_of_resets {sp : SubProc} {g : Grant} (h : grantResets sp g = true) :
    recorded sp g = { sp.cleared g.tbs with first := false, last := some g } := by
  rw [recorded, if_pos h]
  rfl

theorem recorded_of_continues {sp : SubProc} {g : Grant} (h : ¬ grantResets sp g = true) :
    recorded sp g = { sp with nRetx := sp.nRetx + 1, first := false, last := some g, tbs := g.tbs } := by
  rw [recorded, if_neg h]

/-- A grant that resets nothing has the size the process's soft buffer declares (R195, R302). -/
theorem sb_tbs_of_continues {sp : SubProc} {g : Grant} (h : ¬ grantResets sp g = true) :
    sp.sb.tbs = some g.tbs.toNat := by
  simp only [grantResets, isResized, Bool.or_eq_true, not_or, Bool.not_eq_true] at h
  obtain ⟨⟨hnew, hdisc⟩, hres⟩ := h
  simpa [hnew, hdisc] using hres

/-! ### Payload ownership (R38) -/

theorem recorded_payloadOwned {sp : SubProc} (h : PayloadOwned sp) (g : Grant) : PayloadOwned (recorded sp g) := by
  by_cases hr : grantResets sp g = true
  · simp [recorded_of_resets hr, PayloadOwned, SubProc.cleared]
  · rw [recorded_of_continues hr]
    exact h

theorem PayloadOwned.reset : PayloadOwned .reset := by simp [PayloadOwned, SubProc.reset]

theorem SubMove.payloadOwned {sp sp' : SubProc} (m : SubMove sp sp') (h : PayloadOwned sp) : PayloadOwned sp' := by
  cases m with
  | duplicate => exact h
  | duplicateReset => simp [PayloadOwned, SubProc.cleared]
  | noBuffer g => exact recorded_payloadOwned h g
  | accepted g w held => simpa [PayloadOwned] using held
  | delivered => simp [PayloadOwned]
  | givenBack => simp [PayloadOwned]
  | reset => exact .reset

/-- Settles O54: every move of a sub-process keeps the rule, and the host's accesses move none. -/
theorem everyStepKeepsPayloadOwnership : Obligations.EveryStepKeepsPayloadOwnership := by
  intro s t hs h
  rcases step_cases h with ⟨i, rest, u, r, st, hu, rfl⟩ | ⟨_, _, _, _, -, rfl⟩
  · exact hu.keeps_subs SubMove.payloadOwned hs
  · exact hs

/-! ### The records of a sub-process (R36, R37, R43, R196, R200) -/

/-- Only the success flag and the state are tied to each other; the handle and the duplicate count are free. -/
theorem SubRecords.withState {sp : SubProc} (h : SubRecords sp) (st : SubState) (ack : Bool) (payload dupCnt : Word)
    (hok : st = .decodedOk → ack = true) (hko : st = .decodedKo → ack = false) (hempty : st = .empty → ack = false) :
    SubRecords { sp with state := st, ack := ack, payload := payload, dupCnt := dupCnt } :=
  ⟨h.snapshot, hok, hko, hempty, h.noSoft, h.sized⟩

theorem recorded_subRecords {sp : SubProc} (h : SubRecords sp) (g : Grant) : SubRecords (recorded sp g) := by
  by_cases hr : grantResets sp g = true
  · rw [recorded_of_resets hr]
    constructor <;> simp [SubProc.cleared, SoftBuffer.resetFor]
  · have hsize := sb_tbs_of_continues hr
    rw [recorded_of_continues hr]
    exact ⟨rfl, h.okAcked, h.koNotAcked, h.emptyNotAcked, h.noSoft, by simp [hsize]⟩

theorem SubRecords.reset : SubRecords .reset := by constructor <;> simp [SubProc.reset, SoftBuffer.empty]

theorem SubMove.subRecords {sp sp' : SubProc} (m : SubMove sp sp') (h : SubRecords sp) : SubRecords sp' := by
  cases m with
  | duplicate => exact h.withState _ _ _ _ h.okAcked h.koNotAcked h.emptyNotAcked
  | duplicateReset =>
    exact ⟨h.snapshot, by simp [SubProc.cleared], fun _ => rfl, fun _ => rfl, ⟨rfl, rfl⟩,
      fun g hg => ⟨rfl, (h.sized g hg).2⟩⟩
  | noBuffer g => exact recorded_subRecords h g
  | accepted g w held => exact (recorded_subRecords h g).withState _ _ _ _ (by simp) (by simp) (by simp)
  | delivered => exact h.withState _ _ _ _ (by simp) (by simp) (by simp)
  | givenBack => exact h.withState _ _ _ _ (by simp) (by simp) (by simp)
  | reset => exact .reset

theorem SubMove.awaitingRecorded {sp sp' : SubProc} (m : SubMove sp sp')
    (h : sp.state = .awaitingDecode → sp.last.isSome = true) :
    sp'.state = .awaitingDecode → sp'.last.isSome = true := by
  cases m with
  | duplicate => exact h
  | noBuffer g | accepted g => exact fun _ => rfl
  | duplicateReset | delivered | givenBack | reset => exact fun e => by cases e

end Sys2Proof.Machine

namespace Sys2Proof.Machine

/-! ### The configuration in force (R26, R252) -/

/-- Exactly the elements that the length names are kept (R252). -/
@[simp] theorem operandCfg_bitmap_length (s : State) :
    (operandCfg s).bitmap.length = (operandCfg s).bitmapLen.toNat := by
  simp [operandCfg, cfgOfOperands]

theorem Effect.configLegal {C : Config} {i : Instr} {s u : State} (h : Effect C s i u) (hs : ConfigLegal C s) :
    ConfigLegal C u := by
  by_cases hi : i = .configure
  · subst hi
    cases h with
    | unchanged | badAddress => exact hs
    | configure legal => exact fun _ => ⟨legal, operandCfg_bitmap_length s⟩
  · obtain ⟨hcfg, hvalid⟩ := h.config_eq hi
    rw [ConfigLegal, hcfg, hvalid]
    exact hs

theorem nSubch_le_of_configLegal {C : Config} {s : State} (hs : ConfigLegal C s) (hv : s.cfgValid = true) :
    s.cfg.nSubch.toNat ≤ 20 := by
  have h := (hs hv).1
  simp only [cfgLegal, Bool.and_eq_true, decide_eq_true_eq] at h
  have : nSubchMax = 20 := rfl
  omega

/-! ### The scanner's registers (R29) -/

theorem Effect.scannerIdle {C : Config} {i : Instr} {s u : State} (h : Effect C s i u) (hs : ScannerIdle s) :
    ScannerIdle u := by
  cases h with
  | unchanged | badAddress | workOutsidePool => exact hs
  | reset | configure => exact ⟨rfl, rfl⟩
  | scan => exact ⟨rfl, rfl⟩
  | combine => rw [combine_frame]; exact hs
  | grant => rw [newGrant_frame]; exact hs
  | delivery => rw [tbDecoded_frame]; exact hs
  | build => rw [buildGrant_frame]; exact hs
  | workInPool => rw [transmitStage_frame, receiveStage_frame]; exact ⟨rfl, rfl⟩

/-! ### The two-occasion window of the buffer pairs (R170, R172) -/

theorem PairWindow.empty : PairWindow .empty := by constructor <;> simp [BufferPair.empty, SoftBuffer.empty]

theorem PairsWindowed.congr {s t : State} (h : t.pairs = s.pairs) (hs : PairsWindowed s) : PairsWindowed t := by
  intro c
  rw [State.pair, h]
  exact hs c

theorem PairsWindowed.reset : PairsWindowed .reset := by
  intro c
  rw [State.reset_pair]
  exact .empty

theorem combine_pairsWindowed (C : Config) (c : Nat) (m : SciMsg) (sid slot ce handle : Word) {s : State}
    (hs : PairsWindowed s) : PairsWindowed (combine C c m sid slot ce handle s).state := by
  intro d
  by_cases hcd : c = d
  · subst hcd
    by_cases hc : c < 20
    · rw [combine_pair_self C hc]
      exact pairAfter_window ..
    · rw [State.pair_of_ge _ (by omega)]
      exact .empty
  · rw [combine_pair_other C hcd]
    exact hs d

theorem tbDecoded_pairs (p tb : Nat) (ack : Bool) (s : State) : (tbDecoded p tb ack s).state.pairs = s.pairs := by
  rw [tbDecoded_frame]

theorem receiveHit_pairsWindowed (C : Config) (slot : Word) (h : Hit) {s : State} (hs : PairsWindowed s) :
    PairsWindowed (receiveHit C slot h s).state := by
  have hg : PairsWindowed (newGrant C (rxPid C slot h.msg.rti h.msg.gap) 0 (rxGrant h.msg h.tbs slot) s).state := by
    rw [newGrant_frame]
    exact hs
  simp only [receiveHit]
  split
  · exact .congr (tbDecoded_pairs ..) (combine_pairsWindowed C h.idx h.msg h.sid slot h.ce _ hg)
  · exact hg

theorem receiveStage_pairsWindowed (C : Config) (slot : Word) {s : State} (hs : PairsWindowed s) :
    PairsWindowed (receiveStage C slot s) := by
  have hscan : PairsWindowed (scan C slot s).state := by
    rw [scan_frame]
    exact hs
  simp only [receiveStage]
  split
  · exact hscan
  · exact receiveHit_pairsWindowed C slot _ (s := ((scan C slot s).state.setR 3 _).setR 5 _) hscan

theorem transmitStage_pairs (C : Config) (tick slot : Word) (txReq txRti : Bool) (s : State) :
    (transmitStage C tick slot txReq txRti s).pairs = s.pairs := by rw [transmitStage_frame]

theorem Effect.pairsWindowed {C : Config} {i : Instr} {s u : State} (h : Effect C s i u) (hs : PairsWindowed s) :
    PairsWindowed u := by
  cases h with
  | unchanged | badAddress | workOutsidePool => exact hs
  | reset | configure => exact PairsWindowed.reset.congr rfl
  | scan => rw [scan_frame]; exact hs
  | combine => exact combine_pairsWindowed C _ _ _ _ _ _ hs
  | grant => rw [newGrant_frame]; exact hs
  | delivery => rw [tbDecoded_frame]; exact hs
  | build => rw [buildGrant_frame]; exact hs
  | workInPool txReq txRti tick slot =>
    refine .congr (transmitStage_pairs ..) (receiveStage_pairsWindowed C slot ?_)
    exact hs

/-! ### The remembered message (R41, R231, R232) -/

/-- Decoding the value of an allocation that fits gives the allocation back (R117, R120). -/
theorem rivDecode_rivEncode {n len start : Nat} (hl : 1 ≤ len) (h : len + start ≤ n) :
    rivDecode n (rivEncode n len start) = { len := len, start := start, ok := true } := by
  have hsplit : rivSplit n (rivEncode n len start) = ((len : Int), (start : Int)) := by
    have hn : 0 < n := by omega
    by_cases hk : len - 1 ≤ n / 2
    · have e : rivEncode n len start = start + n * (len - 1) := by rw [rivEncode, if_pos hk, Nat.add_comm]
      have hdiv : (start + n * (len - 1)) / n = len - 1 := by
        rw [Nat.add_mul_div_left _ _ hn, Nat.div_eq_of_lt (by omega), Nat.zero_add]
      have hmod : (start + n * (len - 1)) % n = start := by
        rw [Nat.add_mul_mod_self_left, Nat.mod_eq_of_lt (by omega)]
      rw [e, rivSplit, hdiv, hmod, if_pos (by omega), Nat.sub_add_cancel hl]
    · have e : rivEncode n len start = n - 1 - start + n * (n - len + 1) := by rw [rivEncode, if_neg hk, Nat.add_comm]
      have hdiv : (n - 1 - start + n * (n - len + 1)) / n = n - len + 1 := by
        rw [Nat.add_mul_div_left _ _ hn, Nat.div_eq_of_lt (by omega), Nat.zero_add]
      have hmod : (n - 1 - start + n * (n - len + 1)) % n = n - 1 - start := by
        rw [Nat.add_mul_mod_self_left, Nat.mod_eq_of_lt (by omega)]
      rw [e, rivSplit, hdiv, hmod, if_neg (by omega), Prod.mk.injEq]
      omega
  simp only [rivDecode, hsplit, Int.toNat_natCast, beq_self_eq_true, Bool.and_true, Alloc.mk.injEq, true_and,
    decide_eq_true_eq]
  omega

/-- A message that the search for `bits` can build under the configuration `c`, with a start that its length leaves
room for (R232, R233). -/
def Built (C : Config) (c : PoolCfg) (m : SciMsg) : Prop :=
  ∃ bits x start, findCandidate C c bits = some x ∧ start ≤ c.nSubch.toNat - x.len ∧ m = builtMsg C c x start

/-- What the search finds is a length within the pool whose PRB count is admissible (R231, R232). -/
theorem findCandidate_len {C : Config} {c : PoolCfg} {bits : Word} {x : Candidate}
    (h : findCandidate C c bits = some x) :
    1 ≤ x.len ∧ x.len ≤ c.nSubch.toNat ∧ smooth5 (dataPrbs C c x.len) = true := by
  obtain ⟨k, hk, hx⟩ := List.exists_of_findSome?_eq_some h
  rw [List.mem_range] at hk
  unfold candidateAt at hx
  split at hx
  · obtain ⟨mcs, -, rfl⟩ := Option.map_eq_some_iff.mp hx
    exact ⟨Nat.succ_pos k, hk, ‹_›⟩
  · cases hx

/-- The allocation of a built message is the candidate's, at the start that was drawn (R31, R232). -/
theorem msgAlloc_builtMsg (C : Config) {c : PoolCfg} (hn : c.nSubch.toNat ≤ 20) {x : Candidate} {start : Nat}
    (hl : 1 ≤ x.len) (h : x.len + start ≤ c.nSubch.toNat) :
    msgAlloc c (builtMsg C c x start) = { len := x.len, start := start, ok := true } := by
  have hlt := rivEncode_lt c.nSubch.toNat x.len start hl h
  have hfits : c.nSubch.toNat * (c.nSubch.toNat + 1) / 2 ≤ 20 * 21 / 2 :=
    Nat.div_le_div_right (Nat.mul_le_mul hn (by omega))
  rw [msgAlloc, builtMsg, BitVec.toNat_ofNat, Nat.mod_eq_of_lt (by omega), rivDecode_rivEncode hl h]

theorem Built.first_generation {C : Config} {c : PoolCfg} {m : SciMsg} (h : Built C c m) : m.rti = false := by
  obtain ⟨_, _, _, -, -, rfl⟩ := h
  rfl

theorem Built.allocation {C : Config} {c : PoolCfg} {m : SciMsg} (h : Built C c m) (hn : c.nSubch.toNat ≤ 20) :
    (msgAlloc c m).ok = true ∧ smooth5 (dataPrbs C c (msgAlloc c m).len) = true := by
  obtain ⟨bits, x, start, hx, hs, rfl⟩ := h
  obtain ⟨hl, hfit, hsmooth⟩ := findCandidate_len hx
  rw [msgAlloc_builtMsg C hn hl (by omega)]
  exact ⟨rfl, hsmooth⟩

theorem buildGrant_txLast (C : Config) (slot bits : Word) (rti : Bool) (s : State) :
    (buildGrant C slot bits rti s).state.txLast = s.txLast ∨
    ∃ m, Built C s.cfg m ∧ (buildGrant C slot bits rti s).state.txLast = some m := by
  unfold buildGrant
  split
  · exact .inl rfl
  · split
    · unfold buildSecond
      split <;> exact .inl rfl
    · unfold buildFirst
      split
      · exact .inr ⟨_, ⟨bits, _, _, ‹_›, askRand_le .., rfl⟩, rfl⟩
      · exact .inl rfl

theorem transmitStage_txLast (C : Config) (tick slot : Word) (txReq txRti : Bool) (s : State) :
    (transmitStage C tick slot txReq txRti s).txLast = s.txLast ∨
    ∃ m, Built C s.cfg m ∧ (transmitStage C tick slot txReq txRti s).txLast = some m := by
  have hb := buildGrant_txLast C slot (s.opA 1) txRti s
  simp only [transmitStage]
  split
  · split <;> exact hb
  · exact .inl rfl

theorem receiveStage_cfg (C : Config) (slot : Word) (s : State) : (receiveStage C slot s).cfg = s.cfg := by
  rw [receiveStage_frame]

theorem receiveStage_txLast (C : Config) (slot : Word) (s : State) : (receiveStage C slot s).txLast = s.txLast := by
  rw [receiveStage_frame]

/-- An effect forgets the remembered message; or the configuration stays, and so does the message, or a built one takes
its place (R41, R232, R250, R253). -/
theorem Effect.txLast_cases {C : Config} {i : Instr} {s u : State} (h : Effect C s i u) :
    u.txLast = none ∨
    (u.cfg = s.cfg ∧ u.cfgValid = s.cfgValid ∧
      (u.txLast = s.txLast ∨ (s.cfgValid = true ∧ ∃ m, Built C s.cfg m ∧ u.txLast = some m))) := by
  have hcfg := h.config_eq
  cases h with
  | reset | configure => exact .inl rfl
  | unchanged | badAddress | workOutsidePool => exact .inr ⟨rfl, rfl, .inl rfl⟩
  | scan => rw [scan_frame]; exact .inr ⟨rfl, rfl, .inl rfl⟩
  | combine => rw [combine_frame]; exact .inr ⟨rfl, rfl, .inl rfl⟩
  | grant => rw [newGrant_frame]; exact .inr ⟨rfl, rfl, .inl rfl⟩
  | delivery => rw [tbDecoded_frame]; exact .inr ⟨rfl, rfl, .inl rfl⟩
  | build slot bits configured =>
    obtain ⟨hc, hv⟩ := hcfg (by simp)
    exact .inr ⟨hc, hv, (buildGrant_txLast ..).imp_right fun hm => ⟨configured, hm⟩⟩
  | workInPool txReq txRti tick slot configured =>
    obtain ⟨hc, hv⟩ := hcfg (by simp)
    have ht := transmitStage_txLast C tick slot txReq txRti (receiveStage C slot (s.workStarted tick slot))
    rw [receiveStage_cfg, receiveStage_txLast] at ht
    exact .inr ⟨hc, hv, ht.imp_right fun hm => ⟨configured, hm⟩⟩

/-- A remembered message stays valid and admissible under the configuration in force (R41, R231, R232, R253). -/
theorem Effect.txLast {C : Config} {i : Instr} {s u : State} (h : Effect C s i u) (hs : ConfigLegal C s)
    (hbuilt : TxLastBuilt s) (hadm : TxLastAdmissible C s) : TxLastBuilt u ∧ TxLastAdmissible C u := by
  unfold TxLastBuilt TxLastAdmissible
  rcases h.txLast_cases with e | ⟨hc, hv, e | ⟨configured, m, hm, e⟩⟩
  · simp [e]
  · rw [hc, hv, e]
    exact ⟨hbuilt, hadm⟩
  · obtain ⟨hok, hsmooth⟩ := hm.allocation (nSubch_le_of_configLegal hs configured)
    simp [hc, hv, e, hm.first_generation, configured, hok, hsmooth]

/-! ### The invariant of the data model -/

/-- Settles O52: every sub-process and every pair has its reset value, nothing is configured or remembered. -/
theorem powerOnMeetsInvariant : Obligations.PowerOnMeetsInvariant where
  config h := by cases h
  scanner := ⟨rfl, rfl⟩
  statusListed := ⟨.ok, rfl⟩
  payloads p tb := by rw [State.reset_sub]; exact .reset
  subs p tb := by rw [State.reset_sub]; exact .reset
  awaiting p tb h := by rw [State.reset_sub] at h; cases h
  pairs := .reset
  txLast m h := by cases h
  txAdmissible m h := by cases h

/-- Every operation keeps the invariant: an effect keeps each part of it, and the operation ends with a listed code. -/
theorem Ends.inv {C : Config} {i : Instr} {s t : State} (h : Ends C i s t) (hs : s.Inv C) : t.Inv C := by
  obtain ⟨u, r, st, hu, rfl⟩ := h
  obtain ⟨htx, hadm⟩ := hu.txLast hs.config hs.txLast hs.txAdmissible
  exact {
    config := hu.configLegal hs.config
    scanner := hu.scannerIdle hs.scanner
    statusListed := ⟨st, rfl⟩
    payloads := hu.keeps_subs SubMove.payloadOwned hs.payloads
    subs := hu.keeps_subs SubMove.subRecords hs.subs
    awaiting := hu.keeps_subs SubMove.awaitingRecorded hs.awaiting
    pairs := hu.pairsWindowed hs.pairs
    txLast := htx
    txAdmissible := hadm }

/-- The invariant says nothing of the fields that the host's own accesses write, but of STATUS. -/
theorem State.Inv.withHostFields {C : Config} {s : State} (hs : s.Inv C) {a : Vector Word 8} {status : Word}
    {inbox : List HostAccess} {readData : Option Word} (hst : ∃ st : Status, status = st.word) :
    State.Inv C { s with a := a, status := status, inbox := inbox, readData := readData } :=
  ⟨hs.config, hs.scanner, hst, hs.payloads, hs.subs, hs.awaiting, hs.pairs, hs.txLast, hs.txAdmissible⟩

/-- Settles O53: a step runs an operation or is the host's alone, and both keep the invariant. -/
theorem everyStepKeepsInvariant : Obligations.EveryStepKeepsInvariant := by
  intro s t hs h
  rcases step_cases h with ⟨i, rest, he⟩ | ⟨a, status, inbox, readData, hst, rfl⟩
  · exact he.inv (hs.withHostFields hs.statusListed)
  · rcases hst with rfl | rfl
    · exact hs.withHostFields hs.statusListed
    · exact hs.withHostFields ⟨.illegalCmd, rfl⟩

end Sys2Proof.Machine

namespace Sys2Proof.Machine

/-! ### The register space (R61) -/

theorem State.readReg_operand (s : State) (k : Fin 8) : s.readReg k.val = s.a[k] := by simp [State.readReg]

theorem State.readReg_result (s : State) (k : Fin 8) : s.readReg (8 + k.val) = s.r[k] := by
  simp only [State.readReg, show ¬ 8 + k.val < 8 by omega, show 8 + k.val < 16 by omega, dif_pos, dif_neg,
    not_false_eq_true, Nat.add_sub_cancel_left, Fin.getElem_fin]

theorem State.readReg_status (s : State) : s.readReg 0x11 = s.status := rfl

theorem State.readReg_counter (s : State) (k : Counter) : s.readReg (0x20 + k.index.val) = s.counter k := by
  cases k <;> rfl

theorem State.readReg_retxSum (s : State) : s.readReg 0x29 = s.retxSum := rfl

theorem State.readReg_pktCnt (s : State) : s.readReg 0x2A = s.pktCnt := rfl

/-- CMD and the reserved indices read as 0. -/
theorem State.readReg_reserved (s : State) {index : Nat}
    (h : index = 0x10 ∨ (0x12 ≤ index ∧ index < 0x20) ∨ 0x2A < index) : s.readReg index = 0 := by
  unfold State.readReg
  rw [dif_neg (by omega), dif_neg (by omega), if_neg (by omega), dif_neg (by omega), if_neg (by omega),
    if_neg (by omega)]

theorem State.writeReg_operand (s : State) (k : Fin 8) (v : Word) : s.writeReg k.val v = s.setA k v :=
  dif_pos k.isLt

theorem State.writeReg_ignored (s : State) {index : Nat} (h : 8 ≤ index) (v : Word) : s.writeReg index v = s :=
  dif_neg (by omega)

theorem access_write_of_ne (C : Config) (s : State) {index : Nat} (h : index ≠ cmdIndex) (v : Word) :
    access C (.write index v) s = s.writeReg index v := if_neg h

theorem access_command (C : Config) (s : State) {w : Word} {i : Instr} (h : decode w = .ok i) :
    access C (.write cmdIndex w) s = operate C i s := by
  simp [access, h]

/-- Settles O5: the pending access is the command's, and the two dispatch tables agree. -/
theorem stepRunsDecoded : Obligations.StepRunsDecoded := by
  intro s w rest i hnext hdec
  rw [step_eq_access hnext, access_command _ _ hdec, exec_eq_operate]

/-- Settles O7, by the map's reading of each index. -/
theorem hostReadReturnsMappedRegister : Obligations.HostReadReturnsMappedRegister := by
  intro s index rest hin
  refine ⟨s.readReg index, step_eq_access hin, ?_, ?_, ?_, ?_, ?_, ?_, s.readReg_reserved⟩
  · rintro k rfl
    exact s.readReg_operand k
  · rintro k rfl
    exact s.readReg_result k
  · rintro rfl
    exact s.readReg_status
  · rintro k rfl
    exact s.readReg_counter k
  · rintro rfl
    exact s.readReg_retxSum
  · rintro rfl
    exact s.readReg_pktCnt

/-- Settles O8: operand indices lie below CMD, and every other index but CMD's takes no write. -/
theorem hostWriteReachesOperandsOnly : Obligations.HostWriteReachesOperandsOnly := by
  intro s index v rest hin
  rw [step_eq_access hin]
  constructor
  · rintro k rfl
    have hk : k.val ≠ cmdIndex := by
      unfold cmdIndex
      omega
    rw [access_write_of_ne _ _ hk, State.writeReg_operand]
    rfl
  · intro hge hcmd
    rw [access_write_of_ne _ _ hcmd, State.writeReg_ignored _ hge]

end Sys2Proof.Machine

namespace Sys2Proof.Machine

/-! ### The command word of RESET (R82, R86) -/

/-- A word is its four byte fields (R80). -/
theorem commandWord_fields (w : Word) : commandWord (fieldOp w) (fieldF2 w) (fieldF1 w) (fieldF0 w) = w := by
  apply BitVec.eq_of_getLsbD_eq
  intro i hi
  simp only [commandWord, fieldOp, fieldF2, fieldF1, fieldF0, BitVec.getLsbD_append, BitVec.getLsbD_extractLsb']
  interval_cases i <;> simp

theorem whenZero_eq_ok {zero : Bool} {i j : Instr} : whenZero zero i = .ok j ↔ zero = true ∧ i = j := by
  cases zero <;> simp [whenZero]

/-- No other word runs RESET (R86, R87). -/
theorem eq_encode_reset_of_decode {w : Word} (h : decode w = .ok .reset) : w = encode .reset := by
  simp only [decode] at h
  split at h
  case h_1 hop =>
    simp only [whenZero_eq_ok, Bool.and_eq_true, beq_iff_eq, and_true] at h
    obtain ⟨⟨h2, h1⟩, h0⟩ := h
    have ho : fieldOp w = 0x01 := BitVec.eq_of_toNat_eq hop
    rw [← commandWord_fields w, ho, h2, h1, h0, encode]
  all_goals simp [whenZero_eq_ok] at h

/-! ### Transmit events and the last worked tick (R42, R258) -/

theorem receiveHit_txTicks (C : Config) (slot : Word) (h : Hit) (s : State) :
    txTicks (receiveHit C slot h s).state.history = txTicks s.history := by
  have hg := (newGrant_extends C (rxPid C slot h.msg.rti h.msg.gap) 0 (rxGrant h.msg h.tbs slot) s).txTicks
  simp only [receiveHit]
  split
  · rw [tbDecoded_txTicks, (combine_extends ..).txTicks, hg]
  · exact hg

theorem receiveStage_txTicks (C : Config) (slot : Word) (s : State) :
    txTicks (receiveStage C slot s).history = txTicks s.history := by
  have hs := (scan_extends C slot s).txTicks
  simp only [receiveStage]
  split
  · exact hs
  · exact (receiveHit_txTicks C slot _ (((scan C slot s).state.setR 3 _).setR 5 _)).trans hs

/-- The transmit stage makes at most one transmit event, at its tick (R255, R258). -/
theorem transmitStage_txTicks (C : Config) (tick slot : Word) (txReq txRti : Bool) (s : State) :
    ∃ sent, sent.Sublist [tick.toNat] ∧
      txTicks (transmitStage C tick slot txReq txRti s).history = txTicks s.history ++ sent := by
  have hb := (buildGrant_extends C slot (s.opA 1) txRti s).txTicks
  simp only [transmitStage]
  split
  · split
    · refine ⟨[tick.toNat], .refl _, ?_⟩
      simp only [State.setR_history, State.note_history, txTicks_append, hb]
      rfl
    · exact ⟨[], List.nil_sublist _, by simp [hb]⟩
  · exact ⟨[], List.nil_sublist _, by simp⟩

/-- RESET's `Dealloc` events are no transmit events (R250). -/
theorem opReset_txTicks (C : Config) (s : State) : txTicks (opReset C s).history = txTicks s.history := by
  simp [opReset, txTicks]

/-- WORK aside, no effect transmits (R258). -/
theorem Effect.txTicks_eq {C : Config} {i : Instr} {s u : State} (h : Effect C s i u) (hw : ∀ x y, i ≠ .work x y) :
    txTicks u.history = txTicks s.history := by
  cases h with
  | unchanged | badAddress | configure => rfl
  | reset => exact opReset_txTicks C s
  | scan => exact (scan_extends ..).txTicks
  | combine => exact (combine_extends ..).txTicks
  | grant => exact (newGrant_extends ..).txTicks
  | delivery => exact tbDecoded_txTicks ..
  | build => exact (buildGrant_extends ..).txTicks
  | workOutsidePool | workInPool => exact absurd rfl (hw _ _)

/-- WORK and RESET aside, no effect touches the last worked tick (R42). -/
theorem Effect.lastTick_eq {C : Config} {i : Instr} {s u : State} (h : Effect C s i u) (hw : ∀ x y, i ≠ .work x y)
    (hr : i ≠ .reset) : u.lastTick = s.lastTick := by
  cases h with
  | unchanged | badAddress | configure => rfl
  | reset => exact absurd rfl hr
  | scan => rw [scan_frame]
  | combine => rw [combine_frame]
  | grant => rw [newGrant_frame]
  | delivery => rw [tbDecoded_frame]
  | build => rw [buildGrant_frame]
  | workOutsidePool | workInPool => exact absurd rfl (hw _ _)

/-! ### How a tick epoch goes on -/

/-- What a step within a tick epoch does to the transmit events and the last worked tick: nothing, or it works a later
tick and sends at most one transmit event, at that tick (R42, R255, R258). -/
def EpochMove (s t : State) : Prop :=
  (txTicks t.history = txTicks s.history ∧ t.lastTick = s.lastTick) ∨
  ∃ tick sent, (∀ l, s.lastTick = some l → l.toNat < tick.toNat) ∧ List.Sublist sent [tick.toNat] ∧
    txTicks t.history = txTicks s.history ++ sent ∧ t.lastTick = some tick

theorem EpochMove.quiet {s t : State} (ticks : txTicks t.history = txTicks s.history) (last : t.lastTick = s.lastTick) :
    EpochMove s t := .inl ⟨ticks, last⟩

/-- A closed configuration gate is a quiet move (R280). -/
theorem EpochMove.gated {s : State} {go : State → State} (h : EpochMove s (go s)) :
    EpochMove s (s.whenConfigured go) := by
  rcases s.whenConfigured_cases go with ⟨-, e⟩ | ⟨-, e⟩ <;> rw [e]
  · exact .quiet rfl rfl
  · exact h

theorem lt_of_not_tickRefused {s : State} {tick l : Word} (h : ¬ tickRefused s tick = true)
    (hl : s.lastTick = some l) : l.toNat < tick.toNat := by
  simpa [tickRefused, hl] using h

/-- The two stages of a WORK in the pool work its tick (R255). -/
theorem workStages_epochMove (C : Config) (tick slot : Word) (txReq txRti : Bool) {s : State}
    (later : ∀ l, s.lastTick = some l → l.toNat < tick.toNat) :
    EpochMove s (transmitStage C tick slot txReq txRti (receiveStage C slot (s.workStarted tick slot))) := by
  obtain ⟨sent, one, ticks⟩ :=
    transmitStage_txTicks C tick slot txReq txRti (receiveStage C slot (s.workStarted tick slot))
  rw [receiveStage_txTicks] at ticks
  refine .inr ⟨tick, sent, later, one, ticks, ?_⟩
  rw [transmitStage_frame, receiveStage_frame]
  rfl

theorem opWork_epochMove (C : Config) (txReq txRti : Bool) (s : State) : EpochMove s (opWork C txReq txRti s) := by
  refine .gated ?_
  dsimp only
  split
  · exact .quiet rfl rfl
  · have later : ∀ l, s.lastTick = some l → l.toNat < (s.opA 0).toNat := fun _ => lt_of_not_tickRefused ‹_›
    split
    · exact .inr ⟨s.opA 0, [], later, List.nil_sublist _, (List.append_nil _).symm, rfl⟩
    · exact workStages_epochMove C (s.opA 0) _ txReq txRti later

/-- Every operation but RESET goes on with the epoch. -/
theorem operate_epochMove (C : Config) {i : Instr} (hr : i ≠ .reset) (s : State) : EpochMove s (operate C i s) := by
  by_cases hw : ∃ x y, i = .work x y
  · obtain ⟨x, y, rfl⟩ := hw
    exact opWork_epochMove C x y s
  · have hw' : ∀ x y, i ≠ .work x y := fun x y e => hw ⟨x, y, e⟩
    obtain ⟨u, r, st, hu, e⟩ := operate_ends C i s
    rw [e]
    exact .quiet (hu.txTicks_eq hw') (hu.lastTick_eq hw' hr)

/-- An access that runs no operation leaves the history and the last worked tick (R61, R65, R87). -/
theorem access_cases (C : Config) (x : HostAccess) (s : State) :
    (∃ w i, x = .write cmdIndex w ∧ decode w = .ok i) ∨
    ((access C x s).history = s.history ∧ (access C x s).lastTick = s.lastTick) := by
  cases x with
  | read index => exact .inr ⟨rfl, rfl⟩
  | write index v =>
    by_cases hcmd : index = cmdIndex
    · subst hcmd
      cases hdec : decode v with
      | ok i => exact .inl ⟨v, i, rfl, hdec⟩
      | error e => simp [access, hdec]
    · rw [access_write_of_ne C s hcmd, State.writeReg]
      split <;> exact .inr ⟨rfl, rfl⟩

/-- Every step but the one that runs RESET goes on with the epoch. -/
theorem step_epochMove {s t : State} (hr : ∀ rest, ¬ NextCommand s (encode .reset) rest) (h : step s = .next t) :
    EpochMove s t := by
  cases hin : s.inbox with
  | nil =>
    rw [step, hin] at h
    cases h
    exact .quiet rfl rfl
  | cons x rest =>
    rw [step_eq_access hin] at h
    cases h
    rcases access_cases Config.hw x { s with inbox := rest } with ⟨w, i, rfl, hdec⟩ | ⟨hh, hl⟩
    · have hi : i ≠ .reset := by
        rintro rfl
        exact hr rest (eq_encode_reset_of_decode hdec ▸ hin)
      rw [access_command _ _ hdec]
      exact operate_epochMove Config.hw hi { s with inbox := rest }
    · exact .quiet (by rw [hh]) hl

/-- A move keeps the order of the events from any position of the history on: what it sends has a tick above the last
worked one, which bounds all earlier ones (R68). -/
theorem EpochOrdered.move {start : Nat} {s t : State} (hs : EpochOrdered start s) (hstart : start ≤ s.history.length)
    (hp : s.history <+: t.history) (m : EpochMove s t) : EpochOrdered start t := by
  obtain ⟨more, hmore⟩ := hp
  obtain ⟨sorted, bound⟩ := hs
  have hdrop : txTicks (t.history.drop start) = txTicks (s.history.drop start) ++ txTicks more := by
    rw [← hmore, List.drop_append_of_le_length hstart, txTicks_append]
  rw [EpochOrdered, hdrop]
  rcases m with ⟨ticks, last⟩ | ⟨tick, sent, later, one, ticks, last⟩
  · have hnone : txTicks more = [] := by simpa [← hmore] using ticks
    rw [hnone, List.append_nil, last]
    exact ⟨sorted, bound⟩
  · have hsent : txTicks more = sent := by simpa [← hmore] using ticks
    have hnow : ∀ n ∈ sent, n = tick.toNat := fun n hn => List.mem_singleton.mp (one.subset hn)
    have hbefore : ∀ n ∈ txTicks (s.history.drop start), n < tick.toNat := by
      intro n hn
      obtain ⟨l, hl, hle⟩ := bound n hn
      exact hle.trans_lt (later l hl)
    rw [hsent, last]
    constructor
    · refine List.pairwise_append.mpr ⟨sorted, (List.pairwise_singleton _ _).sublist one, ?_⟩
      intro n hn k hk
      exact hnow k hk ▸ hbefore n hn
    · intro n hn
      refine ⟨tick, rfl, ?_⟩
      rcases List.mem_append.mp hn with hn | hn
      · exact (hbefore n hn).le
      · exact (hnow n hn).le

theorem EpochOrdered.at_end (s : State) : EpochOrdered s.history.length s := by
  simp [EpochOrdered]

/-- Settles O55: every step but RESET's makes one move of the epoch, and RESET's starts an empty one. -/
theorem transmitTicksIncrease : Obligations.TransmitTicksIncrease := by
  refine ⟨.at_end State.reset, ?_, ?_⟩
  · intro s t start hstart hs hr h
    obtain ⟨more, e⟩ := historyOnlyGrows s t h
    exact hs.move hstart ⟨more, e.symm⟩ (step_epochMove hr h)
  · intro s t rest hnext h
    rw [step_eq_access hnext, access_command (i := .reset) _ _ rfl] at h
    cases h
    exact ⟨opReset_txTicks .., rfl, .at_end _⟩

end Sys2Proof.Machine

namespace Sys2Proof.Machine

/-! ### The information word of a control message (R90, R91) -/

/-- A field of a sequence is the part that stands between what comes before it and what comes after it. -/
theorem fieldAt_append {pre mid post : List Bool} {start len : Nat} (hpre : pre.length = start)
    (hmid : mid.length = len) : fieldAt (pre ++ (mid ++ post)) start len = valOf mid := by
  subst hpre hmid
  simp [fieldAt]

/-- A field that ends within the first `k` bits does not depend on the bits after them. -/
theorem fieldAt_take {bits : List Bool} {start len k : Nat} (h : start + len ≤ k) :
    fieldAt (bits.take k) start len = fieldAt bits start len := by
  rw [fieldAt, fieldAt, List.drop_take, List.take_take, Nat.min_eq_left (by omega)]

/-- The first `a` of `n = a + b` bits are those of the number without its low `b` bits (R11). -/
theorem take_bitsOf {n a b : Nat} (h : n = a + b) (v : Nat) : (bitsOf n v).take a = bitsOf a (v / 2 ^ b) := by
  subst h
  simp only [bitsOf, ← List.map_take, List.take_range, Nat.min_eq_left (Nat.le_add_right a b)]
  refine List.map_congr_left fun i hi => ?_
  have hi : i < a := List.mem_range.mp hi
  rw [Nat.testBit_div_two_pow, show a + b - 1 - i = a - 1 - i + b by omega]

/-- The 32 bits of a message in their order: the fields, then the reserved zeros (R90). -/
def sciBits (n : Nat) (m : SciMsg) : List Bool :=
  bitsOf 3 m.prio.toNat ++ (bitsOf 4 m.resv.toNat ++ (bitsOf (rivBits n) m.riv.toNat ++ (bitsOf 4 m.gap.toNat ++
    (bitsOf 5 m.mcs.toNat ++ ([m.rti] ++ List.replicate (15 - rivBits n) false)))))

theorem length_sciBits {n : Nat} (h : n ≤ 20) (m : SciMsg) : (sciBits n m).length = 32 := by
  have := rivBits_le n h
  simp only [sciBits, List.length_append, length_bitsOf, List.length_singleton, List.length_replicate]
  omega

/-- The packed word holds exactly these bits (R90). -/
theorem bitsOf_sciPack {n : Nat} (h : n ≤ 20) (m : SciMsg) : bitsOf 32 (sciPack n m).toNat = sciBits n m := by
  have hlt : valOf (sciBits n m) < 2 ^ 32 := length_sciBits h m ▸ valOf_lt _
  have hval : (sciPack n m).toNat = valOf (sciBits n m) := by
    simpa [sciPack, sciBits, List.append_assoc] using hlt
  rw [hval, ← length_sciBits h m, bitsOf_valOf]

/-- Each field is read back from the place it was written to; the `riv` is cut to its width (R90, R91). -/
theorem sciUnpack_sciPack {n : Nat} (h : n ≤ 20) (m : SciMsg) :
    sciUnpack n (sciPack n m) = { m with riv := BitVec.ofNat 8 (m.riv.toNat % 2 ^ rivBits n) } := by
  have hprio : fieldAt (sciBits n m) 0 3 = m.prio.toNat := by
    rw [sciBits, ← List.nil_append (_ ++ _), fieldAt_append List.length_nil (length_bitsOf ..), valOf_bitsOf,
      Nat.mod_eq_of_lt m.prio.isLt]
  have hresv : fieldAt (sciBits n m) 3 4 = m.resv.toNat := by
    rw [sciBits, fieldAt_append (by simp) (length_bitsOf ..), valOf_bitsOf, Nat.mod_eq_of_lt m.resv.isLt]
  have hriv : fieldAt (sciBits n m) 7 (rivBits n) = m.riv.toNat % 2 ^ rivBits n := by
    rw [sciBits, ← List.append_assoc, fieldAt_append (by simp) (length_bitsOf ..), valOf_bitsOf]
  have hgap : fieldAt (sciBits n m) (7 + rivBits n) 4 = m.gap.toNat := by
    rw [sciBits, ← List.append_assoc, ← List.append_assoc, fieldAt_append (by simp; omega) (length_bitsOf ..),
      valOf_bitsOf, Nat.mod_eq_of_lt m.gap.isLt]
  have hmcs : fieldAt (sciBits n m) (11 + rivBits n) 5 = m.mcs.toNat := by
    rw [sciBits, ← List.append_assoc, ← List.append_assoc, ← List.append_assoc,
      fieldAt_append (by simp; omega) (length_bitsOf ..), valOf_bitsOf, Nat.mod_eq_of_lt m.mcs.isLt]
  have hrti : (sciBits n m)[16 + rivBits n]? = some m.rti := by
    rw [sciBits, ← List.append_assoc, ← List.append_assoc, ← List.append_assoc, ← List.append_assoc,
      List.getElem?_append_right (by simp; omega)]
    simp [show 16 + rivBits n - (3 + (4 + (rivBits n + (4 + 5)))) = 0 by omega]
  simp [sciUnpack, bitsOf_sciPack h, hprio, hresv, hriv, hgap, hmcs, hrti]

/-- Unpacking reads the bits of the fields only (R91). -/
theorem sciUnpack_congr {n : Nat} {x y : Word}
    (h : (bitsOf 32 x.toNat).take (17 + rivBits n) = (bitsOf 32 y.toNat).take (17 + rivBits n)) :
    sciUnpack n x = sciUnpack n y := by
  have hfield : ∀ start len, start + len ≤ 17 + rivBits n →
      fieldAt (bitsOf 32 x.toNat) start len = fieldAt (bitsOf 32 y.toNat) start len := by
    intro start len hle
    rw [← fieldAt_take hle, h, fieldAt_take hle]
  have hrti : (bitsOf 32 x.toNat)[16 + rivBits n]? = (bitsOf 32 y.toNat)[16 + rivBits n]? := by
    rw [← List.getElem?_take_of_lt (show 16 + rivBits n < 17 + rivBits n by omega), h,
      List.getElem?_take_of_lt (by omega)]
  simp only [sciUnpack, List.getD_eq_getElem?_getD, hrti]
  rw [hfield 0 3 (by omega), hfield 3 4 (by omega), hfield 7 _ (by omega), hfield _ 4 (by omega),
    hfield _ 5 (by omega)]

/-- Settles O19: the fields are read back from their places, and the reserved bits stand after them. -/
theorem unpackInvertsPack : Obligations.UnpackInvertsPack := by
  intro n _ hn
  constructor
  · intro m hriv
    rw [sciUnpack_sciPack hn, Nat.mod_eq_of_lt hriv, BitVec.ofNat_toNat, BitVec.setWidth_eq]
  · intro x y hxy
    have hw := rivBits_le n hn
    have hsplit : 32 = 17 + rivBits n + (15 - rivBits n) := by omega
    apply sciUnpack_congr
    rw [take_bitsOf hsplit, take_bitsOf hsplit, hxy]

end Sys2Proof.Machine

namespace Sys2Proof.Machine

open Laws.SelectsOwnRow (fields_commandWord selectedBy_commandWord opcodeTable_bytes)

/-! ### The bits of a command's byte fields (R82, R85) -/

@[simp] theorem kindOfNumber_number (k : Kind) : kindOfNumber k.number = k := by
  cases k <;> rfl

@[simp] theorem number_kindOfNumber (k : BitVec 2) : (kindOfNumber k).number = k := by
  revert k
  decide

/-- Field `f2` of NEWGRANT with zero upper bits is made of the two NDI bits and the kind (R82). -/
theorem newgrantByte_of_zero {f : Byte} (h : f.extractLsb' 4 4 = 0) :
    0#4 ++ BitVec.ofBool (f.getLsbD 3) ++ BitVec.ofBool (f.getLsbD 2) ++ f.extractLsb' 0 2 = f := by
  rw [← BitVec.ofNat_eq_ofNat, ← h]
  apply BitVec.eq_of_getLsbD_eq
  intro i hi
  simp only [BitVec.getLsbD_append, BitVec.getLsbD_extractLsb']
  interval_cases i <;> simp

/-- A field with zero upper bits and one flag is made of the flag (R82). -/
theorem flagByte_of_zero {f : Byte} (h : f.extractLsb' 1 7 = 0) : 0#7 ++ BitVec.ofBool (f.getLsbD 0) = f := by
  rw [← BitVec.ofNat_eq_ofNat, ← h]
  apply BitVec.eq_of_getLsbD_eq
  intro i hi
  simp only [BitVec.getLsbD_append, BitVec.getLsbD_extractLsb']
  interval_cases i <;> simp

/-- A field with zero upper bits and two flags is made of the flags (R82). -/
theorem flagsByte_of_zero {f : Byte} (h : f.extractLsb' 2 6 = 0) :
    0#6 ++ BitVec.ofBool (f.getLsbD 1) ++ BitVec.ofBool (f.getLsbD 0) = f := by
  rw [← BitVec.ofNat_eq_ofNat, ← h]
  apply BitVec.eq_of_getLsbD_eq
  intro i hi
  simp only [BitVec.getLsbD_append, BitVec.getLsbD_extractLsb']
  interval_cases i <;> simp

/-- Reading the parts of field `f2` of NEWGRANT back (R82). -/
theorem newgrantByte_parts (ndi ndiPresent : Bool) (k : BitVec 2) :
    let f : Byte := 0#4 ++ BitVec.ofBool ndi ++ BitVec.ofBool ndiPresent ++ k
    f.extractLsb' 4 4 = 0 ∧ f.extractLsb' 0 2 = k ∧ f.getLsbD 2 = ndiPresent ∧ f.getLsbD 3 = ndi := by
  revert ndi ndiPresent k
  decide

theorem flagByte_parts (b : Bool) :
    let f : Byte := 0#7 ++ BitVec.ofBool b
    f.extractLsb' 1 7 = 0 ∧ f.getLsbD 0 = b := by
  revert b
  decide

theorem flagsByte_parts (b1 b0 : Bool) :
    let f : Byte := 0#6 ++ BitVec.ofBool b1 ++ BitVec.ofBool b0
    f.extractLsb' 2 6 = 0 ∧ f.getLsbD 1 = b1 ∧ f.getLsbD 0 = b0 := by
  revert b1 b0
  decide

/-- When the mask of the bits from `k` on finds none set, these bits are zero. -/
theorem extractLsb'_eq_zero_of_mask {f : Byte} {k : Nat} (h : f &&& (BitVec.allOnes 8 <<< k) = 0) :
    f.extractLsb' k (8 - k) = 0 := by
  apply BitVec.eq_of_getLsbD_eq
  intro i hi
  have hbit := congrArg (BitVec.getLsbD · (k + i)) h
  simpa [hi, show k + i < 8 by omega, show ¬ 8 ≤ i by omega, -BitVec.reduceAllOnes,
    -BitVec.getLsbD_eq_getElem] using hbit

/-- A field that the row's mask covers whole stands as it is (R86). -/
theorem and_fullMask (f : Byte) : f &&& 0xFF = f := BitVec.and_allOnes

/-- A field that is an operand whole plays no part in the selection of a row (R86). -/
theorem and_emptyMask (f : Byte) : f &&& 0x00 = 0 := BitVec.and_zero

/-! ### Encoding and decoding are inverse (R80 to R89) -/

/-- The decoder reads every operand back from the field the encoder put it in. -/
theorem decode_encode (i : Instr) : decode (encode i) = .ok i := by
  cases i with
  | reset | configure | slotidx | scienc | scidec | scan => rfl
  | subchoff | rivenc | rivdec | combine => simp [decode, encode, fields_commandWord, whenZero]
  | newgrant pid tb kind ndiPresent ndi =>
    obtain ⟨hzero, hkind, hpresent, hndi⟩ := newgrantByte_parts ndi ndiPresent kind.number
    simp only [decode, encode, fields_commandWord, hzero, hkind, hpresent, hndi, kindOfNumber_number]
    rfl
  | tbdecoded pid tb ack =>
    obtain ⟨hzero, hack⟩ := flagByte_parts ack
    simp only [decode, encode, fields_commandWord, hzero, hack]
    rfl
  | buildgrant rti =>
    obtain ⟨hzero, hrti⟩ := flagByte_parts rti
    simp only [decode, encode, fields_commandWord, hzero, hrti]
    rfl
  | work txReq txRti =>
    obtain ⟨hzero, hrti, hreq⟩ := flagsByte_parts txRti txReq
    simp only [decode, encode, fields_commandWord, hzero, hrti, hreq]
    rfl

/-- A word with the given fields is the command word of these fields (R80). -/
theorem commandWord_eq {w : Word} {op f2 f1 f0 : Byte} (hop : (fieldOp w).toNat = op.toNat) (h2 : fieldF2 w = f2)
    (h1 : fieldF1 w = f1) (h0 : fieldF0 w = f0) : commandWord op f2 f1 f0 = w := by
  rw [← BitVec.eq_of_toNat_eq hop, ← h2, ← h1, ← h0, commandWord_fields]

/-- No second encoding of an operation exists (R87, R89). -/
theorem encode_of_decode {w : Word} {i : Instr} (h : decode w = .ok i) : encode i = w := by
  simp only [decode] at h
  split at h
  all_goals simp only [whenZero_eq_ok, Bool.and_eq_true, beq_iff_eq, reduceCtorEq] at h
  all_goals obtain ⟨hzero, rfl⟩ := h
  case h_1 hop | h_2 hop | h_3 hop | h_7 hop | h_8 hop | h_9 hop =>
    obtain ⟨⟨h2, h1⟩, h0⟩ := hzero
    exact commandWord_eq hop h2 h1 h0
  case h_4 hop | h_6 hop | h_10 hop =>
    obtain ⟨h2, h1⟩ := hzero
    exact commandWord_eq hop h2 h1 rfl
  case h_5 hop => exact commandWord_eq hop hzero rfl rfl
  case h_11 hop =>
    rw [encode, number_kindOfNumber]
    exact commandWord_eq hop (newgrantByte_of_zero hzero).symm rfl rfl
  case h_12 hop => exact commandWord_eq hop (flagByte_of_zero hzero).symm rfl rfl
  case h_13 hop =>
    obtain ⟨⟨h2, h1⟩, h0⟩ := hzero
    exact commandWord_eq hop h2 h1 (flagByte_of_zero h0).symm
  case h_14 hop =>
    obtain ⟨⟨h2, h1⟩, h0⟩ := hzero
    exact commandWord_eq hop h2 h1 (flagsByte_of_zero h0).symm

/-! ### The legal words are the encodings (R86, R87) -/

/-- An operation's command word selects its own row only (R86). -/
theorem selectedRows_encode (i : Instr) : selectedRows (encode i) = [i.mnemonic] := by
  cases i with
  | reset => exact Laws.SelectsOwnRow.reset
  | configure => exact Laws.SelectsOwnRow.configure
  | slotidx => exact Laws.SelectsOwnRow.slotidx
  | subchoff => exact Laws.SelectsOwnRow.subchoff _
  | rivenc => exact Laws.SelectsOwnRow.rivenc ..
  | rivdec => exact Laws.SelectsOwnRow.rivdec _
  | scienc => exact Laws.SelectsOwnRow.scienc
  | scidec => exact Laws.SelectsOwnRow.scidec
  | scan => exact Laws.SelectsOwnRow.scan
  | combine => exact Laws.SelectsOwnRow.combine _
  | newgrant => exact Laws.SelectsOwnRow.newgrant ..
  | tbdecoded => exact Laws.SelectsOwnRow.tbdecoded ..
  | buildgrant => exact Laws.SelectsOwnRow.buildgrant _
  | work => exact Laws.SelectsOwnRow.work ..

theorem wordLegal_of_selectedRows {w : Word} {name : String} (h : selectedRows w = [name]) : wordLegal w = true := by
  rw [wordLegal, List.any_eq_true]
  have hmem : name ∈ selectedRows w := h ▸ List.mem_singleton_self name
  obtain ⟨row, hrow, -⟩ := List.mem_map.mp hmem
  exact ⟨row, List.mem_filter.mp hrow⟩

/-- A word that selects a row is the encoding of an operation of that row (R86). -/
theorem exists_encode_of_wordLegal {w : Word} (h : wordLegal w = true) : ∃ i, encode i = w := by
  rw [← commandWord_fields w] at h ⊢
  generalize fieldOp w = op, fieldF2 w = f2, fieldF1 w = f1, fieldF0 w = f0 at h ⊢
  simp only [wordLegal, opcodeTable_bytes, List.any_cons, List.any_nil, selectedBy_commandWord, Bool.or_eq_true,
    Bool.and_eq_true, beq_iff_eq, and_fullMask, and_emptyMask, and_true, Bool.false_eq_true, or_false,
    and_assoc] at h
  rcases h with ⟨rfl, rfl, rfl, rfl⟩ | ⟨rfl, rfl, rfl, rfl⟩ | ⟨rfl, rfl, rfl, rfl⟩ | ⟨rfl, rfl, rfl⟩ | ⟨rfl, rfl⟩ |
    ⟨rfl, rfl, rfl⟩ | ⟨rfl, rfl, rfl, rfl⟩ | ⟨rfl, rfl, rfl, rfl⟩ | ⟨rfl, rfl, rfl, rfl⟩ | ⟨rfl, rfl, rfl⟩ |
    ⟨rfl, h2⟩ | ⟨rfl, h2⟩ | ⟨rfl, rfl, rfl, h0⟩ | ⟨rfl, rfl, rfl, h0⟩
  · exact ⟨.reset, rfl⟩
  · exact ⟨.configure, rfl⟩
  · exact ⟨.slotidx, rfl⟩
  · exact ⟨.subchoff f0, rfl⟩
  · exact ⟨.rivenc f1 f0, rfl⟩
  · exact ⟨.rivdec f0, rfl⟩
  · exact ⟨.scienc, rfl⟩
  · exact ⟨.scidec, rfl⟩
  · exact ⟨.scan, rfl⟩
  · exact ⟨.combine f0, rfl⟩
  · have hbyte := newgrantByte_of_zero (extractLsb'_eq_zero_of_mask (k := 4) h2)
    exact ⟨.newgrant f0 f1 (kindOfNumber (f2.extractLsb' 0 2)) (f2.getLsbD 2) (f2.getLsbD 3), by
      rw [encode, number_kindOfNumber, hbyte]⟩
  · have hbyte := flagByte_of_zero (extractLsb'_eq_zero_of_mask (k := 1) h2)
    exact ⟨.tbdecoded f0 f1 (f2.getLsbD 0), by rw [encode, hbyte]⟩
  · have hbyte := flagByte_of_zero (extractLsb'_eq_zero_of_mask (k := 1) h0)
    exact ⟨.buildgrant (f0.getLsbD 0), by rw [encode, hbyte]⟩
  · have hbyte := flagsByte_of_zero (extractLsb'_eq_zero_of_mask (k := 2) h0)
    exact ⟨.work (f0.getLsbD 0) (f0.getLsbD 1), by rw [encode, hbyte]⟩

/-- A word decodes exactly when it selects a row: both readings of the encoding accept the words that are an
operation's encoding, and no others. -/
theorem exists_decode_iff_wordLegal (w : Word) : (∃ i, decode w = .ok i) ↔ wordLegal w = true := by
  constructor
  · rintro ⟨i, hi⟩
    rw [← encode_of_decode hi]
    exact wordLegal_of_selectedRows (selectedRows_encode i)
  · intro h
    obtain ⟨i, rfl⟩ := exists_encode_of_wordLegal h
    exact ⟨i, decode_encode i⟩

/-! ### An illegal command word (R87), and the statements of the encoding -/

/-- The host's write of an illegal word executes no operation (R87). -/
theorem access_illegal (C : Config) (s : State) {w : Word} (h : wordLegal w = false) :
    access C (.write cmdIndex w) s = s.illegalCommand := by
  cases hdec : decode w with
  | ok i => exact absurd ((exists_decode_iff_wordLegal w).mp ⟨i, hdec⟩) (by simp [h])
  | error e => simp [access, hdec]

/-- Settles O1, by the operation's fields. -/
theorem decodeOfEncode : Obligations.DecodeOfEncode := decode_encode

/-- Settles O2, by the decoder's branches. -/
theorem encodeOfDecode : Obligations.EncodeOfDecode := fun _ _ => encode_of_decode

/-- Settles O3: both readings accept exactly the encodings. -/
theorem decodeAcceptsExactlyTheTable : Obligations.DecodeAcceptsExactlyTheTable := exists_decode_iff_wordLegal

/-- Settles O6: an illegal word decodes to no operation, and a word that decodes is the encoding of its operation. -/
theorem illegalWordOnlySetsStatus : Obligations.IllegalWordOnlySetsStatus := by
  refine ⟨?_, by decide, ?_⟩
  · intro s w rest hnext hw
    rw [step_eq_access hnext, access_illegal _ _ hw]
    rfl
  · intro w i hdec
    rw [← encode_of_decode hdec, selectedRows_encode]

/-- Settles O4: each of the five words is the encoding of its operation. -/
theorem specWordsDecode : Obligations.SpecWordsDecode :=
  ⟨decode_encode (.newgrant 2 0 .sidelink true true), decode_encode (.tbdecoded 2 0 true),
    decode_encode (.rivenc 4 1), decode_encode (.work true true), decode_encode .reset⟩

end Sys2Proof.Machine

namespace Sys2Proof.Machine

/-! ### The closed gate (R280) -/

/-- Before a configuration is accepted a gated operation does nothing but answer `CFG_INVALID`. -/
theorem exec_of_unconfigured {i : Instr} {s : State} (hv : s.cfgValid = false) (hr : i ≠ .reset)
    (hc : i ≠ .configure) : exec i s = .next { s with status := 0x31 } := by
  rw [exec_eq_operate]
  cases i with
  | reset => exact absurd rfl hr
  | configure => exact absurd rfl hc
  | _ =>
    simp only [operate, opSlotidx, opSubchoff, opRivenc, opRivdec, opScienc, opScidec, opScan, opCombine, opNewgrant,
      opTbdecoded, opBuildgrant, opWork, State.whenConfigured_of_invalid hv]
    rfl

/-! ### The calendar by counting, one tick at a time (R111, R121) -/

/-- The next number stays in its period, or starts the next one. -/
theorem succ_div_mod_cases {n : Nat} (hn : 0 < n) (j : Nat) :
    (j % n + 1 < n ∧ (j + 1) / n = j / n ∧ (j + 1) % n = j % n + 1) ∨
    (j % n + 1 = n ∧ (j + 1) / n = j / n + 1 ∧ (j + 1) % n = 0) := by
  have hj := Nat.mod_add_div j n
  rcases Nat.lt_or_eq_of_le (Nat.succ_le_of_lt (Nat.mod_lt j hn)) with hlt | heq
  · exact .inl ⟨hlt, (Nat.div_mod_unique hn).mpr ⟨by omega, hlt⟩⟩
  · exact .inr ⟨heq, (Nat.div_mod_unique hn).mpr ⟨by rw [Nat.mul_succ]; omega, hn⟩⟩

theorem countP_range_succ (p : Nat → Bool) (t : Nat) :
    (List.range (t + 1)).countP p = (List.range t).countP p + (p t).toNat := by
  rw [List.range_succ, List.countP_append, List.countP_singleton]
  cases p t <;> rfl

/-- A period holds one sync slot, so the closed form counts one more exactly after a sync slot. -/
theorem syncBefore_succ {c : PoolCfg} (hc : CalendarLegal c) (t : Nat) :
    syncBefore c (t + 1) = syncBefore c t + (isSync c t).toNat := by
  obtain ⟨-, -, hsync⟩ := hc
  rcases Nat.eq_zero_or_pos c.syncPeriod.toNat with hzero | hpos
  · simp [syncBefore, isSync, hzero]
  · have hoff : c.syncOff.toNat < c.syncPeriod.toNat := by omega
    have hslot : isSync c t = decide (t % c.syncPeriod.toNat = c.syncOff.toNat) := by
      rw [isSync, bne_iff_ne.mpr hpos.ne', Bool.true_and, beq_eq_decide]
    simp only [syncBefore, if_neg hpos.ne', hslot, Bool.toNat, Bool.cond_decide]
    rcases succ_div_mod_cases hpos t with ⟨-, hdiv, hmod⟩ | ⟨hlast, hdiv, hmod⟩ <;> rw [hdiv, hmod]
    · split_ifs <;> omega
    · split_ifs <;> omega

/-- Every tick before `t` is a sync slot or not one. -/
theorem nonsyncBefore_add_syncBefore {c : PoolCfg} (hc : CalendarLegal c) (t : Nat) :
    nonsyncBefore c t + syncBefore c t = t := by
  induction t with
  | zero => simp [nonsyncBefore, syncBefore]
  | succ t ih =>
    have hcount : nonsyncBefore c (t + 1) = nonsyncBefore c t + (!isSync c t).toNat := countP_range_succ _ t
    rw [hcount, syncBefore_succ hc]
    cases isSync c t <;> simp <;> omega

/-- The ones among the first `j` elements of the bitmap laid cyclically (R121). -/
def cyclicOnes (c : PoolCfg) (j : Nat) : Nat :=
  j / c.bitmapLen.toNat * onesBelow c c.bitmapLen.toNat + onesBelow c (j % c.bitmapLen.toNat)

theorem onesBelow_succ (c : PoolCfg) (k : Nat) : onesBelow c (k + 1) = onesBelow c k + (c.bit k).toNat := by
  rw [onesBelow, onesBelow, PoolCfg.bit, List.take_add_one, List.countP_append, List.getD_eq_getElem?_getD]
  rcases c.bitmap[k]? with _ | _ | _ <;> rfl

theorem cyclicOnes_succ {c : PoolCfg} (hn : 0 < c.bitmapLen.toNat) (j : Nat) :
    cyclicOnes c (j + 1) = cyclicOnes c j + (c.bit (j % c.bitmapLen.toNat)).toNat := by
  have hstep := onesBelow_succ c (j % c.bitmapLen.toNat)
  simp only [cyclicOnes]
  rcases succ_div_mod_cases hn j with ⟨-, hdiv, hmod⟩ | ⟨hlast, hdiv, hmod⟩
  · rw [hdiv, hmod, hstep, Nat.add_assoc]
  · have hnone : onesBelow c 0 = 0 := rfl
    rw [hlast] at hstep
    rw [hdiv, hmod, hnone, Nat.succ_mul, Nat.add_zero, Nat.add_assoc, ← hstep]

/-- The eligible ticks before `t` are the ones of the cyclic bitmap laid over the ticks that are no sync slot. -/
theorem countP_eligible {c : PoolCfg} (hn : 0 < c.bitmapLen.toNat) (t : Nat) :
    (List.range t).countP (eligible c) = cyclicOnes c (nonsyncBefore c t) := by
  induction t with
  | zero => simp [nonsyncBefore, cyclicOnes, onesBelow]
  | succ t ih =>
    have hcount : nonsyncBefore c (t + 1) = nonsyncBefore c t + (!isSync c t).toNat := countP_range_succ _ t
    rw [countP_range_succ, ih, hcount, eligible]
    cases isSync c t
    · exact (cyclicOnes_succ hn _).symm
    · rfl

theorem slotIndex_eq_slotIndexByCount {c : PoolCfg} (hc : CalendarLegal c) (t : Nat) :
    slotIndex c t = slotIndexByCount c t := by
  have hj : t - syncBefore c t = nonsyncBefore c t := by
    have := nonsyncBefore_add_syncBefore hc t
    omega
  simp only [slotIndex, slotIndexByCount, hj, countP_eligible hc.1, eligible]
  cases isSync c t <;> cases c.bit (nonsyncBefore c t % c.bitmapLen.toNat) <;> rfl

/-- Settles O13: sync slots, then eligible ticks, counted one tick at a time. -/
theorem closedFormCountsTicks : Obligations.ClosedFormCountsTicks := fun _ t hc => slotIndex_eq_slotIndexByCount hc t

/-- Settles O14: SLOTIDX answers by the closed form, which counts. -/
theorem slotidxGivesOrdinal : Obligations.SlotidxGivesOrdinal := by
  intro s
  refine ⟨(exec_of_unconfigured · nofun nofun), fun hv hc => ?_⟩
  have hcount : slotIndex s.cfg (s.opA 0).toNat = slotIndexByCount s.cfg (s.a[0]).toNat :=
    slotIndex_eq_slotIndexByCount hc _
  rw [exec_eq_operate, operate, opSlotidx, State.whenConfigured_of_valid hv, hcount]
  cases slotIndexByCount s.cfg (s.a[0]).toNat with
  | none => rfl
  | some k => rfl

/-! ### Subchannels and resource indication values (R114, R116 to R120) -/

/-- Settles O15, by the test on the index. -/
theorem subchoffGivesRange : Obligations.SubchoffGivesRange := by
  intro s idx
  refine ⟨(exec_of_unconfigured · nofun nofun), fun hv hout => ?_, fun hv hin => ?_⟩
  · rw [exec_eq_operate, operate, opSubchoff, State.whenConfigured_of_valid hv, if_pos hout]
    rfl
  · rw [exec_eq_operate, operate, opSubchoff, State.whenConfigured_of_valid hv, if_neg (Nat.not_le.mpr hin)]
    rfl

/-- Settles O16: the operation's test refuses exactly the pairs outside the pool. -/
theorem rivencGivesValue : Obligations.RivencGivesValue := by
  intro s len start
  refine ⟨(exec_of_unconfigured · nofun nofun), fun hv hout => ?_, fun hv hl hin => ?_⟩
  · rw [exec_eq_operate, operate, opRivenc, State.whenConfigured_of_valid hv, if_pos (by omega)]
    rfl
  · rw [exec_eq_operate, operate, opRivenc, State.whenConfigured_of_valid hv, if_neg (by omega)]
    rfl

/-- Every value below `n (n + 1) / 2` is the value of an allocation within the pool: of the direct one, or of the
mirrored one when the direct one does not fit (R116, R117). -/
theorem exists_rivEncode_eq {n r : Nat} (h : r < n * (n + 1) / 2) :
    ∃ len start, 1 ≤ len ∧ len + start ≤ n ∧ rivEncode n len start = r := by
  have hn : 0 < n := Nat.pos_of_ne_zero fun e => by simp [e] at h
  have hr := Nat.div_add_mod r n
  have hmod := Nat.mod_lt r hn
  have htri : 2 * (n * (r / n) + r % n) < n * (n + 1) := by omega
  generalize r / n = q, r % n = p at *
  by_cases hfit : q + 1 + p ≤ n
  · have hq : q ≤ n / 2 := by
      have : 2 * q < n + 1 := by nlinarith
      omega
    refine ⟨q + 1, p, by omega, hfit, ?_⟩
    rw [rivEncode, if_pos (by omega), Nat.add_sub_cancel, hr]
  · have hq : 2 * q < n := by nlinarith
    refine ⟨n - q + 1, n - 1 - p, by omega, by omega, ?_⟩
    rw [rivEncode, if_neg (by omega), show n - (n - q + 1) + 1 = q by omega, show n - 1 - (n - 1 - p) = p by omega, hr]

/-- A value is valid exactly below `n (n + 1) / 2` (R117). -/
theorem rivDecode_ok_iff (n r : Nat) : (rivDecode n r).ok = true ↔ r < n * (n + 1) / 2 := by
  constructor
  · intro h
    simp only [rivDecode, Bool.and_eq_true, decide_eq_true_eq, beq_iff_eq] at h
    obtain ⟨⟨hl, hln, hs, hfit⟩, henc⟩ := h
    rw [← henc]
    exact rivEncode_lt n _ _ (by omega) (by omega)
  · intro h
    obtain ⟨len, start, hl, hfit, rfl⟩ := exists_rivEncode_eq h
    rw [rivDecode_rivEncode hl hfit]

/-- Settles O17: the values below the bound are the values of allocations, and no others are valid. -/
theorem rivdecInvertsBelowTriangle : Obligations.RivdecInvertsBelowTriangle := by
  intro s riv
  refine ⟨(exec_of_unconfigured · nofun nofun), fun hv _ _ => ⟨fun hlt => ?_, fun hge => ?_⟩⟩
  · obtain ⟨len, start, hl, hfit, henc⟩ := exists_rivEncode_eq hlt
    refine ⟨len, start, hl, hfit, henc, ?_⟩
    rw [exec_eq_operate, operate, opRivdec, State.whenConfigured_of_valid hv, ← henc, rivDecode_rivEncode hl hfit]
    rfl
  · have hbad : ¬ (rivDecode s.cfg.nSubch.toNat riv.toNat).ok = true := by
      rw [rivDecode_ok_iff]
      omega
    rw [exec_eq_operate, operate, opRivdec, State.whenConfigured_of_valid hv, if_neg hbad]
    rfl

/-- Settles O18: the round trip is the law of `rivDecode` and `rivEncode`. -/
theorem rivRoundTrip : Obligations.RivRoundTrip := fun _ _ _ => rivDecode_rivEncode

end Sys2Proof.Machine

namespace Sys2Proof.Machine

/-! ### The codec's register images as widenings (R63, R84, R135) -/

/-- A checksum stands in a register zero-extended (R63). -/
theorem crcWord_eq_setWidth (crc : BitVec 16) : crcWord crc = crc.setWidth 32 :=
  (BitVec.setWidth_eq_append (by decide)).symm

/-- The checksum bits of an operand are its low half (R135). -/
theorem parityOf_eq_setWidth (w : Word) : parityOf w = w.setWidth 16 :=
  (BitVec.setWidth_eq_extractLsb' (by decide)).symm

/-- An operand below 2^16 has the value of its checksum bits. -/
theorem parityOf_toNat {w : Word} (h : w.toNat < 2 ^ 16) : (parityOf w).toNat = w.toNat := by
  rw [parityOf_eq_setWidth, BitVec.toNat_setWidth, Nat.mod_eq_of_lt h]

/-! ### Encoding, then decoding (R131, R132) -/

/-- The allocation of a valid value encodes to that value (R117). -/
theorem rivEncode_rivDecode {n r : Nat} (h : (rivDecode n r).ok = true) :
    rivEncode n (rivDecode n r).len (rivDecode n r).start = r := by
  obtain ⟨len, start, hl, hfit, rfl⟩ := exists_rivEncode_eq ((rivDecode_ok_iff n r).mp h)
  rw [rivDecode_rivEncode hl hfit]

/-- A valid `riv` fits its field (R115, R117). -/
theorem riv_lt_of_ok {c : PoolCfg} {m : SciMsg} (h : (msgAlloc c m).ok = true) :
    m.riv.toNat < 2 ^ rivBits c.nSubch.toNat :=
  ((rivDecode_ok_iff ..).mp h).trans_le (le_two_pow_ceilLog2 _)

/-- A message with a valid `riv` survives packing whole (R90, R91). -/
theorem sciUnpack_sciPack_of_ok {c : PoolCfg} {m : SciMsg} (hn : c.nSubch.toNat ≤ 20) (h : (msgAlloc c m).ok = true) :
    sciUnpack c.nSubch.toNat (sciPack c.nSubch.toNat m) = m := by
  rw [sciUnpack_sciPack hn, Nat.mod_eq_of_lt (riv_lt_of_ok h), BitVec.ofNat_toNat, BitVec.setWidth_eq]

/-- What the decoder returns for an information word whose message has a valid `riv` (R132). -/
theorem sciDecode_of_ok (C : Config) {c : PoolCfg} {info : Word} {m : SciMsg} (hm : sciUnpack c.nSubch.toNat info = m)
    (h : (msgAlloc c m).ok = true) (parity : BitVec 16) :
    sciDecode C c info parity =
      { msg := m, rem := crcOfInfo info, crcOk := parity == crcOfInfo info, rivOk := true, len := (msgAlloc c m).len,
        start := (msgAlloc c m).start, tbs := occasionTbs C c m, qm := C.qm m.mcs } := by
  simp [sciDecode, hm, h]

/-- Settles O20: the message survives packing, and its checksum is the one the decoder computes again. -/
theorem codewordDecodesToMessage : Obligations.CodewordDecodesToMessage := by
  intro C c m _ hn hok
  have hdecode := sciDecode_of_ok C (sciUnpack_sciPack_of_ok hn hok) hok (sciEncode c.nSubch.toNat m).crc
  exact ⟨_, hdecode, rfl, rfl, beq_self_eq_true _, rfl, rivEncode_rivDecode hok⟩

/-! ### SCIENC and SCIDEC (R133, R135) -/

/-- Settles O22: the operation's test refuses exactly the reserved bits and the invalid values. -/
theorem sciencGivesCodeword : Obligations.SciencGivesCodeword := by
  intro s
  have haccept : (msgReservedZero (s.opA 0) && (msgAlloc s.cfg (msgOfWord (s.opA 0))).ok) = true ↔
      (s.a[0]).toNat < 2 ^ 25 ∧ (msgAlloc s.cfg (msgOfWord (s.a[0]))).ok = true := by
    rw [Bool.and_eq_true, msgReservedZero_iff]
    rfl
  refine ⟨(exec_of_unconfigured · nofun nofun), fun hv hbad => ?_, fun hv hlt hok => ?_⟩
  · have hrefuse : ¬ ((s.a[0]).toNat < 2 ^ 25 ∧ (msgAlloc s.cfg (msgOfWord (s.a[0]))).ok = true) :=
      not_and_or.mpr (hbad.imp Nat.not_lt.mpr Bool.eq_false_iff.mp)
    rw [exec_eq_operate, operate, opScienc, State.whenConfigured_of_valid hv, if_neg (haccept.not.mpr hrefuse)]
    rfl
  · rw [← crcWord_eq_setWidth, exec_eq_operate, operate, opScienc, State.whenConfigured_of_valid hv,
      if_pos (haccept.mpr ⟨hlt, hok⟩)]
    rfl

/-- The checksum of a decoded operand passes exactly when the operand is the recomputed one (R132, R134). -/
theorem sciDecode_crcOk_iff (C : Config) (c : PoolCfg) (info : Word) {w : Word} (h : w.toNat < 2 ^ 16) :
    (sciDecode C c info (parityOf w)).crcOk = true ↔ w.toNat = (crcOfInfo info).toNat := by
  rw [sciDecode, beq_iff_eq, ← BitVec.toNat_inj, parityOf_toNat h]

/-- A failed checksum is reported whatever the `riv` (R135). -/
theorem sciStatus_word_of_crc_fail {d : SciDecoded} (hc : d.crcOk = false) : (sciStatus d).word = 0x10 := by
  rw [sciStatus, if_pos (by rw [hc]; rfl)]
  rfl

theorem sciStatus_word_of_riv_fail {d : SciDecoded} (hc : d.crcOk = true) (hr : d.rivOk = false) :
    (sciStatus d).word = 0x12 := by
  rw [sciStatus, hc, hr]
  rfl

theorem sciStatus_word_of_ok {d : SciDecoded} (hc : d.crcOk = true) (hr : d.rivOk = true) :
    (sciStatus d).word = 0x00 := by
  rw [sciStatus, hc, hr]
  rfl

/-- Settles O23: one write of the results serves the three outcomes, which differ in the status alone. -/
theorem scidecReportsChecksumFirst : Obligations.ScidecReportsChecksumFirst := by
  intro s
  refine ⟨(exec_of_unconfigured · nofun nofun), fun hv hge => ?_, fun hv hlt => ?_⟩
  · have hreserved : ¬ parityReservedZero (s.opA 1) = true :=
      (parityReservedZero_iff _).not.mpr (Nat.not_lt.mpr hge)
    rw [exec_eq_operate, operate, opScidec, State.whenConfigured_of_valid hv, if_neg hreserved]
    rfl
  · have hreserved : parityReservedZero (s.opA 1) = true := (parityReservedZero_iff _).mpr hlt
    refine ⟨sciDecode Config.hw s.cfg (s.a[0]) (parityOf (s.a[1])), (sciStatus _).word, by rw [parityOf_eq_setWidth],
      sciDecode_crcOk_iff _ _ _ hlt, sciStatus_word_of_crc_fail, sciStatus_word_of_riv_fail, sciStatus_word_of_ok, ?_⟩
    rw [← crcWord_eq_setWidth, exec_eq_operate, operate, opScidec, State.whenConfigured_of_valid hv, if_pos hreserved]
    rfl

end Sys2Proof.Machine

namespace Sys2Proof.Machine

/-! ### One candidate of a scan (R150, R151) -/

/-- What the decoder makes of the answer for candidate `i` when the loop stands in `s`. -/
def examined (C : Config) (slot : Word) (i : Nat) (s : State) : SciDecoded :=
  sciDecode C s.cfg (C.ctrlRx s.asks slot i).info (C.ctrlRx s.asks slot i).parity

/-- The checksum, the `riv` and the start test (R150, R151). -/
def passes (d : SciDecoded) (i : Nat) : Bool := d.crcOk && consistentAt d i

/-- The counter of a rejected candidate: the checksum is tested first (R151, R155). -/
def rejectCounter (d : SciDecoded) : Counter := if d.crcOk then .sciAlias else .sciCrcFail

/-- The state in which the loop goes on after rejecting candidate `i`: asked, and counted (R151). -/
def State.reject (C : Config) (slot : Word) (i : Nat) (s : State) : State :=
  (askCtrlRx C s slot i).2.count (rejectCounter (examined C slot i s))

@[simp] theorem State.reject_cfg (C : Config) (slot : Word) (i : Nat) (s : State) : (s.reject C slot i).cfg = s.cfg :=
  rfl
@[simp] theorem State.reject_asks (C : Config) (slot : Word) (i : Nat) (s : State) :
    (s.reject C slot i).asks = s.asks + 1 := rfl

/-- The loop ends at a passing candidate and goes on past any other (R151). -/
theorem scanFrom_succ (C : Config) (slot : Word) (n i : Nat) (s : State) :
    scanFrom C slot (n + 1) i s =
      if passes (examined C slot i s) i then
        { hit := some (hitOf (examined C slot i s) (C.ctrlRx s.asks slot i).ce i), state := (askCtrlRx C s slot i).2 }
      else scanFrom C slot n (i + 1) (s.reject C slot i) := by
  have hexamined : sciDecode C s.cfg (askCtrlRx C s slot i).1.info (askCtrlRx C s slot i).1.parity =
    examined C slot i s := rfl
  simp only [scanFrom, State.reject, passes, rejectCounter]
  generalize examined C slot i s = d at hexamined ⊢
  rw [hexamined]
  by_cases hcrc : d.crcOk = true
  · by_cases hkeep : consistentAt d i = true <;> simp [hcrc, hkeep]
  · simp [hcrc]

/-! ### Between scans nothing is kept (R156) -/

theorem examined_congr {C : Config} {slot : Word} {i : Nat} {s u : State} (hcfg : s.cfg = u.cfg)
    (hasks : s.asks = u.asks) : examined C slot i s = examined C slot i u := by
  rw [examined, examined, hcfg, hasks]

/-- The loop reads the configuration and the number of its next question, and nothing else of the state. -/
theorem scanFrom_congr (C : Config) (slot : Word) (n i : Nat) {s u : State} (hcfg : s.cfg = u.cfg)
    (hasks : s.asks = u.asks) :
    (scanFrom C slot n i s).hit = (scanFrom C slot n i u).hit ∧
    (scanFrom C slot n i s).state.asks = (scanFrom C slot n i u).state.asks := by
  induction n generalizing i s u with
  | zero => exact ⟨rfl, hasks⟩
  | succ n ih =>
    rw [scanFrom_succ, scanFrom_succ, examined_congr hcfg hasks, hasks]
    split
    · exact ⟨rfl, congrArg (· + 1) hasks⟩
    · exact ih (i + 1) (by simp [hcfg]) (by simp [hasks])

/-- Settles O25: a scan is its loop, which reads the configuration and the answers only. -/
theorem scanHasNoMemory : Obligations.ScanHasNoMemory := by
  intro C slot s u hcfg hasks
  simp only [scan, hcfg]
  exact scanFrom_congr C slot u.cfg.nSubch.toNat 0 hcfg hasks

/-! ### The state machine of rule R152 -/

/-- The scanner inside a scan, without a result yet: its two registers over the loop's state, and the last answer. -/
def scanningAt (q : ScanState) (i : Nat) (s : State) (ans : CtrlAnswer) : ScanRun :=
  { state := { s with csState := q, csIdx := BitVec.ofNat 8 i }, answer := ans, result := none }

/-- Where the scanner goes for candidate `i` of `n` (R152). -/
def nextState (n i : Nat) : ScanState := if i < n then .est else .miss

/-- In `CS_EST` the scanner puts the loop's question. -/
theorem scanTransition_est (C : Config) (slot : Word) {i : Nat} (hi : i < 2 ^ 8) (s : State) (ans : CtrlAnswer) :
    scanTransition C slot (scanningAt .est i s ans) =
      scanningAt .dec i (askCtrlRx C s slot i).2 (askCtrlRx C s slot i).1 := by
  have hidx : (BitVec.ofNat 8 i).toNat = i := Nat.mod_eq_of_lt hi
  simp only [scanTransition, scanningAt, askCtrlRx_state, askCtrlRx_answer, hidx]

theorem scanReject_scanningAt (q : ScanState) {i : Nat} {s : State} (hi : i < s.cfg.nSubch.toNat) (ans : CtrlAnswer)
    (k : Counter) :
    scanReject (scanningAt q i s ans) k =
      scanningAt (nextState s.cfg.nSubch.toNat (i + 1)) (i + 1) (s.count k) ans := by
  have hlt : i + 1 < 2 ^ 8 := by omega
  have hidx : BitVec.ofNat 8 i + 1#8 = BitVec.ofNat 8 (i + 1) := (BitVec.ofNat_add ..).symm
  have hnat : (BitVec.ofNat 8 (i + 1)).toNat = i + 1 := Nat.mod_eq_of_lt hlt
  simp [scanReject, scanningAt, nextState, State.count, hidx, hnat]

/-- The scanner's index register holds any index below a configuration's number of subchannels (R29). -/
theorem ofNat_toNat_of_lt_byte {i : Nat} {n : Byte} (hi : i < n.toNat) : (BitVec.ofNat 8 i).toNat = i :=
  Nat.mod_eq_of_lt (hi.trans n.isLt)

section
variable {C : Config} {s : State} {ans : CtrlAnswer} {d : SciDecoded} {i : Nat}

/-- In `CS_DEC` a failed checksum rejects the candidate. -/
theorem scanTransition_dec_fail (slot : Word) (hd : sciDecode C s.cfg ans.info ans.parity = d)
    (hi : i < s.cfg.nSubch.toNat) (hcrc : d.crcOk = false) :
    scanTransition C slot (scanningAt .dec i s ans) =
      scanningAt (nextState s.cfg.nSubch.toNat (i + 1)) (i + 1) (s.count .sciCrcFail) ans := by
  rw [← scanReject_scanningAt .dec hi]
  simp [scanTransition, scanningAt, hd, hcrc]

theorem scanTransition_dec_pass (slot : Word) (hd : sciDecode C s.cfg ans.info ans.parity = d)
    (hcrc : d.crcOk = true) : scanTransition C slot (scanningAt .dec i s ans) = scanningAt .check i s ans := by
  simp [scanTransition, scanningAt, hd, hcrc]

/-- In `CS_CHECK` an invalid `riv` or a wrong start rejects the candidate. -/
theorem scanTransition_check_fail (slot : Word) (hd : sciDecode C s.cfg ans.info ans.parity = d)
    (hi : i < s.cfg.nSubch.toNat) (hkeep : consistentAt d i = false) :
    scanTransition C slot (scanningAt .check i s ans) =
      scanningAt (nextState s.cfg.nSubch.toNat (i + 1)) (i + 1) (s.count .sciAlias) ans := by
  rw [← scanReject_scanningAt .check hi]
  simp only [scanTransition, scanningAt, hd, ofNat_toNat_of_lt_byte hi, hkeep, Bool.false_eq_true, if_false]

theorem scanTransition_check_pass (slot : Word) (hd : sciDecode C s.cfg ans.info ans.parity = d)
    (hi : i < s.cfg.nSubch.toNat) (hkeep : consistentAt d i = true) :
    scanTransition C slot (scanningAt .check i s ans) = scanningAt .hit i s ans := by
  simp only [scanTransition, scanningAt, hd, ofNat_toNat_of_lt_byte hi, hkeep, if_true]

/-- In `CS_HIT` the scanner produces the hit and ends idle. -/
theorem scanTransition_hit (slot : Word) (hd : sciDecode C s.cfg ans.info ans.parity = d)
    (hi : i < s.cfg.nSubch.toNat) :
    scanTransition C slot (scanningAt .hit i s ans) =
      { state := s.scannerIdle, answer := ans, result := some (some (hitOf d ans.ce i)) } := by
  simp only [scanTransition, scanningAt, hd, ofNat_toNat_of_lt_byte hi, State.scannerIdle]

theorem scanTransition_miss (slot : Word) :
    scanTransition C slot (scanningAt .miss i s ans) =
      { state := s.scannerIdle, answer := ans, result := some none } := rfl

end

/-- An idle scanner stays as it is (R152). -/
theorem scanTransitions_idle (C : Config) (slot : Word) (k : Nat) {x : ScanRun} (hx : x.state.csState = .idle) :
    scanTransitions C slot k x = x := by
  have hstay : scanTransition C slot x = x := by simp only [scanTransition, hx]
  induction k with
  | zero => rfl
  | succ k ih => rw [scanTransitions, hstay, ih]

/-- The machine spends at most three transitions on a candidate, and then stands where the loop does: at the hit, or
before the next candidate with this one counted. -/
theorem scanTransitions_candidate (C : Config) (slot : Word) {i : Nat} {s : State} (hi : i < s.cfg.nSubch.toNat)
    (ans : CtrlAnswer) :
    ∃ k ≤ 3, ∀ m, scanTransitions C slot (m + k) (scanningAt .est i s ans) =
      scanTransitions C slot m
        (if passes (examined C slot i s) i then scanningAt .hit i (askCtrlRx C s slot i).2 (askCtrlRx C s slot i).1
          else
            scanningAt (nextState s.cfg.nSubch.toNat (i + 1)) (i + 1) (s.reject C slot i)
              (askCtrlRx C s slot i).1) := by
  have hest := scanTransition_est C slot (show i < 2 ^ 8 by omega) s ans
  have hd : sciDecode C (askCtrlRx C s slot i).2.cfg (askCtrlRx C s slot i).1.info (askCtrlRx C s slot i).1.parity =
    examined C slot i s := rfl
  have hia : i < (askCtrlRx C s slot i).2.cfg.nSubch.toNat := hi
  cases hcrc : (examined C slot i s).crcOk with
  | false =>
    refine ⟨2, by omega, fun m => ?_⟩
    rw [scanTransitions, scanTransitions, hest, scanTransition_dec_fail slot hd hia hcrc]
    simp [passes, hcrc, State.reject, rejectCounter, askCtrlRx_state]
  | true =>
    refine ⟨3, by omega, fun m => ?_⟩
    rw [scanTransitions, scanTransitions, scanTransitions, hest, scanTransition_dec_pass slot hd hcrc]
    cases hkeep : consistentAt (examined C slot i s) i with
    | false =>
      rw [scanTransition_check_fail slot hd hia hkeep]
      simp [passes, hcrc, hkeep, State.reject, rejectCounter, askCtrlRx_state]
    | true =>
      rw [scanTransition_check_pass slot hd hia hkeep]
      simp [passes, hcrc, hkeep]

/-- From candidate `i` on, machine and loop agree, whatever the transitions that are left after the result (R152). -/
theorem scanTransitions_eq_scanFrom (C : Config) (slot : Word) (n i m : Nat) (s : State) (ans : CtrlAnswer)
    (hn : i + n = s.cfg.nSubch.toNat) (hm : 3 * n + 1 ≤ m) :
    (scanTransitions C slot m (scanningAt (nextState s.cfg.nSubch.toNat i) i s ans)).result =
      some (scanFrom C slot n i s).hit ∧
    (scanTransitions C slot m (scanningAt (nextState s.cfg.nSubch.toNat i) i s ans)).state =
      (scanFrom C slot n i s).state.scannerIdle := by
  induction n generalizing i m s ans with
  | zero =>
    obtain ⟨m, rfl⟩ := Nat.exists_eq_add_of_le' hm
    rw [nextState, if_neg (by omega), scanTransitions, scanTransition_miss, scanTransitions_idle _ _ _ rfl]
    exact ⟨rfl, rfl⟩
  | succ n ih =>
    have hi : i < s.cfg.nSubch.toNat := by omega
    obtain ⟨k, hk, hcandidate⟩ := scanTransitions_candidate C slot hi ans
    obtain ⟨m, rfl⟩ := Nat.exists_eq_add_of_le' (show k + 1 ≤ m by omega)
    rw [nextState, if_pos hi, show m + (k + 1) = m + 1 + k by omega, hcandidate, scanFrom_succ]
    split
    · rw [scanTransitions, scanTransition_hit (s := (askCtrlRx C s slot i).2) slot rfl hi,
        scanTransitions_idle _ _ _ rfl]
      exact ⟨rfl, rfl⟩
    · exact ih (i + 1) (m + 1) (s.reject C slot i) _ (by rw [State.reject_cfg]; omega) (by omega)

/-- Settles O26: the starting transition puts the scanner before candidate 0. -/
theorem scannerMachineRunsLoop : Obligations.ScannerMachineRunsLoop := by
  intro C slot s hpos
  have h := scanTransitions_eq_scanFrom C slot s.cfg.nSubch.toNat 0 _ s default (Nat.zero_add _) le_rfl
  rwa [nextState, if_pos (show 0 < s.cfg.nSubch.toNat from hpos)] at h

end Sys2Proof.Machine

namespace Sys2Proof.Machine

/-! ### A scan after its first rejections (R151, R155) -/

/-- The state of a scan that started in `s` and has rejected its first `k` candidates (R151). -/
def State.afterRejecting (C : Config) (slot : Word) (s : State) : Nat → State
  | 0 => s
  | k + 1 => (s.afterRejecting C slot k).reject C slot k

/-- `u` is `s` with the questions `0 .. m - 1` of a scan asked, and nothing else but counters changed. -/
def AskedFirst (C : Config) (slot : Word) (s : State) (m : Nat) (u : State) : Prop :=
  u = { s with
    counters := u.counters
    asks := s.asks + m
    history := s.history ++ (List.range m).map fun j => .ctrlRx slot j (C.ctrlRx (s.asks + j) slot j) }

theorem AskedFirst.ask {C : Config} {slot : Word} {s u : State} {m : Nat} (h : AskedFirst C slot s m u) :
    AskedFirst C slot s (m + 1) (askCtrlRx C u slot m).2 := by
  rw [AskedFirst] at h ⊢
  rw [h, askCtrlRx_state, List.range_succ, List.map_append, ← List.append_assoc]
  rfl

theorem AskedFirst.count {C : Config} {slot : Word} {s u : State} {m : Nat} (h : AskedFirst C slot s m u)
    (k : Counter) :
    AskedFirst C slot s m (u.count k) := by
  rw [AskedFirst] at h ⊢
  rw [h]
  rfl

/-- One question for every rejected candidate. -/
theorem State.afterRejecting_askedFirst (C : Config) (slot : Word) (s : State) (k : Nat) :
    AskedFirst C slot s k (s.afterRejecting C slot k) := by
  induction k with
  | zero => simp [AskedFirst, State.afterRejecting]
  | succ k ih => exact ih.ask.count _

theorem examined_eq_candidate {C : Config} {slot : Word} {s u : State} {i : Nat} (h : AskedFirst C slot s i u) :
    examined C slot i u = candidate C slot s i := by
  rw [AskedFirst] at h
  rw [examined, candidate, h]

/-- Rejecting one more candidate counts it, by its checksum. -/
theorem State.afterRejecting_succ_counter (C : Config) (slot : Word) (s : State) (k : Nat) (c : Counter) :
    (s.afterRejecting C slot (k + 1)).counter c =
      (s.afterRejecting C slot k).counter c + BitVec.ofNat 32 (c == rejectCounter (candidate C slot s k)).toNat := by
  rw [State.afterRejecting, State.reject, examined_eq_candidate (s.afterRejecting_askedFirst C slot k)]
  by_cases hc : rejectCounter (candidate C slot s k) = c
  · subst hc
    simp [askCtrlRx_state, State.counter]
  · rw [State.count_counter_other _ hc, beq_eq_false_iff_ne.mpr (Ne.symm hc)]
    simp [askCtrlRx_state, State.counter]

theorem sciCrcFail_beq_rejectCounter (d : SciDecoded) : (Counter.sciCrcFail == rejectCounter d) = !d.crcOk := by
  rw [rejectCounter]
  cases d.crcOk <;> rfl

theorem sciAlias_beq_rejectCounter (d : SciDecoded) : (Counter.sciAlias == rejectCounter d) = d.crcOk := by
  rw [rejectCounter]
  cases d.crcOk <;> rfl

theorem beq_rejectCounter_of_ne {c : Counter} (hcrc : c ≠ .sciCrcFail) (halias : c ≠ .sciAlias) (d : SciDecoded) :
    (c == rejectCounter d) = false := by
  rw [rejectCounter]
  cases d.crcOk
  · exact beq_eq_false_iff_ne.mpr hcrc
  · exact beq_eq_false_iff_ne.mpr halias

/-- Every counter has grown by the rejected candidates that it counts (R155). -/
theorem State.afterRejecting_counter (C : Config) (slot : Word) (s : State) (k : Nat) (c : Counter) :
    (s.afterRejecting C slot k).counter c =
      s.counter c + BitVec.ofNat 32 ((List.range k).countP fun j => c == rejectCounter (candidate C slot s j)) := by
  induction k with
  | zero => simp [State.afterRejecting]
  | succ k ih => rw [State.afterRejecting_succ_counter, ih, countP_range_succ, BitVec.ofNat_add, BitVec.add_assoc]

/-- A rejected candidate counts as `sciCrcFail` or as `sciAlias`, by its checksum; no other counter moves. -/
theorem State.afterRejecting_counters (C : Config) (slot : Word) (s : State) (k : Nat) :
    (s.afterRejecting C slot k).counter .sciCrcFail =
      s.counter .sciCrcFail + BitVec.ofNat 32 ((List.range k).countP fun j => !(candidate C slot s j).crcOk) ∧
    (s.afterRejecting C slot k).counter .sciAlias =
      s.counter .sciAlias + BitVec.ofNat 32 ((List.range k).countP fun j => (candidate C slot s j).crcOk) ∧
    ∀ c : Counter, c ≠ .sciCrcFail → c ≠ .sciAlias → (s.afterRejecting C slot k).counter c = s.counter c := by
  refine ⟨?_, ?_, fun c hcrc halias => ?_⟩
  · simp only [State.afterRejecting_counter, sciCrcFail_beq_rejectCounter]
  · simp only [State.afterRejecting_counter, sciAlias_beq_rejectCounter]
  · simp [State.afterRejecting_counter, beq_rejectCounter_of_ne hcrc halias]

/-! ### The result of a scan (R151) -/

/-- The loop from candidate `i` on, when those before it were rejected: it rejects up to some candidate `k`, which is
past the last one or is accepted. -/
theorem scanFrom_afterRejecting (C : Config) (slot : Word) (s : State) (n i : Nat)
    (hbefore : ∀ j < i, accepted C slot s j = false) :
    ∃ k ≤ i + n, (∀ j < k, accepted C slot s j = false) ∧
      ((k = i + n ∧
        scanFrom C slot n i (s.afterRejecting C slot i) = { hit := none, state := s.afterRejecting C slot k }) ∨
      (k < i + n ∧ accepted C slot s k = true ∧
        scanFrom C slot n i (s.afterRejecting C slot i) =
          { hit := some (hitOf (candidate C slot s k) (C.ctrlRx (s.asks + k) slot k).ce k)
            state := (askCtrlRx C (s.afterRejecting C slot k) slot k).2 })) := by
  induction n generalizing i with
  | zero => exact ⟨i, le_rfl, hbefore, .inl ⟨rfl, rfl⟩⟩
  | succ n ih =>
    have hasked := s.afterRejecting_askedFirst C slot i
    have hasks : (s.afterRejecting C slot i).asks = s.asks + i := by rw [hasked]
    rw [scanFrom_succ, examined_eq_candidate hasked, hasks]
    cases hi : accepted C slot s i with
    | true => exact ⟨i, by omega, hbefore, .inr ⟨by omega, hi, if_pos hi⟩⟩
    | false =>
      rw [if_neg (by rw [passes, ← accepted, hi]; decide), show i + (n + 1) = i + 1 + n by omega]
      refine ih (i + 1) fun j hj => ?_
      rcases Nat.lt_succ_iff_lt_or_eq.mp hj with hlt | rfl
      · exact hbefore j hlt
      · exact hi

/-- What a scan is: it rejects its first `k` candidates, and then has none left or accepts candidate `k`. -/
theorem scan_cases (C : Config) (slot : Word) (s : State) :
    ∃ k ≤ s.cfg.nSubch.toNat, (∀ j < k, accepted C slot s j = false) ∧
      ((k = s.cfg.nSubch.toNat ∧
        scan C slot s = { hit := none, state := (s.afterRejecting C slot k).scannerIdle }) ∨
      (k < s.cfg.nSubch.toNat ∧ accepted C slot s k = true ∧
        scan C slot s =
          { hit := some (hitOf (candidate C slot s k) (C.ctrlRx (s.asks + k) slot k).ce k)
            state := (askCtrlRx C (s.afterRejecting C slot k) slot k).2.scannerIdle })) := by
  obtain ⟨k, hk, hbefore, hend⟩ := scanFrom_afterRejecting C slot s s.cfg.nSubch.toNat 0 nofun
  rw [Nat.zero_add, State.afterRejecting] at hend
  refine ⟨k, by omega, hbefore, hend.imp ?_ ?_⟩
  · rintro ⟨hlast, hloop⟩
    exact ⟨hlast, by rw [scan, hloop]⟩
  · rintro ⟨hlt, haccept, hloop⟩
    exact ⟨hlt, haccept, by rw [scan, hloop]⟩

/-- Completing SCAN with results and a status: what differs from the state it started in (R151). -/
theorem AskedFirst.completed {C : Config} {slot : Word} {s u t : State} {m : Nat} (h : AskedFirst C slot s m u)
    (ht : t = { u.scannerIdle with r := t.r, status := t.status }) :
    t = { s with
      r := t.r, status := t.status, counters := t.counters, csState := .idle, csIdx := 0, asks := t.asks
      history := s.history ++ (List.range (t.asks - s.asks)).map fun j =>
        .ctrlRx slot j (C.ctrlRx (s.asks + j) slot j) } := by
  rw [AskedFirst] at h
  have hasks : t.asks = s.asks + m := by rw [ht, h]; rfl
  have hcounters : t.counters = u.counters := by rw [ht]; rfl
  rw [hasks, hcounters, Nat.add_sub_cancel_left]
  rw [h] at ht
  exact ht

/-- SCAN without a hit ends `NO_SCI` and writes no result register (R151). -/
theorem opScan_of_none {C : Config} {s u : State} (hv : s.cfgValid = true)
    (hscan : scan C (s.a[0]) s = { hit := none, state := u.scannerIdle }) :
    opScan C s = { u.scannerIdle with r := u.r, status := 0x02 } := by
  rw [opScan, State.whenConfigured_of_valid hv, show s.opA 0 = s.a[0] from rfl, hscan]
  rfl

/-- SCAN with a hit ends `OK` and writes the hit to `R0` to `R5` (R151). -/
theorem opScan_of_hit {C : Config} {s u : State} {h : Hit} (hv : s.cfgValid = true)
    (hscan : scan C (s.a[0]) s = { hit := some h, state := u.scannerIdle }) :
    opScan C s = { u.scannerIdle with
      r := (((((u.r.set 0 (msgWord h.msg)).set 1 h.sid).set 2 (BitVec.ofNat 32 h.idx)).set 3 h.ce).set 4 h.tbs).set 5
        (descWord h.len h.start h.qm true true)
      status := 0x00 } := by
  rw [opScan, State.whenConfigured_of_valid hv, show s.opA 0 = s.a[0] from rfl, hscan]
  rfl

/-- Settles O24: the loop rejects up to `k`, and SCAN completes with `NO_SCI` or with the results of candidate `k`. -/
theorem scanFirstValidWins : Obligations.ScanFirstValidWins := by
  intro s
  refine ⟨(exec_of_unconfigured · nofun nofun), fun hv => ?_⟩
  obtain ⟨k, hk, hbefore, hend⟩ := scan_cases Config.hw (s.a[0]) s
  obtain ⟨hcrc, halias, hothers⟩ := s.afterRejecting_counters Config.hw (s.a[0]) k
  have hasked := s.afterRejecting_askedFirst Config.hw (s.a[0]) k
  have hr : (s.afterRejecting Config.hw (s.a[0]) k).r = s.r := by rw [hasked]
  have hasks : (s.afterRejecting Config.hw (s.a[0]) k).asks = s.asks + k := by rw [hasked]
  rw [exec_eq_operate, operate]
  rcases hend with ⟨hlast, hscan⟩ | ⟨hlt, haccept, hscan⟩
  · rw [opScan_of_none hv hscan]
    exact ⟨_, k, rfl, hk, hbefore, hasked.completed rfl, hcrc, halias, hothers, fun _ => ⟨rfl, hr, hasks⟩,
      fun hlt => absurd hlast hlt.ne⟩
  · rw [opScan_of_hit hv hscan]
    refine ⟨_, k, rfl, hk, hbefore, hasked.ask.completed rfl, hcrc, halias, hothers, fun hlast => absurd hlast hlt.ne,
      fun _ => ⟨haccept, rfl, congrArg (· + 1) hasks, ?_⟩⟩
    rw [← crcWord_eq_setWidth, ← hr]
    rfl

end Sys2Proof.Machine

namespace Sys2Proof.Machine

/-! ### The checks of COMBINE (R171) -/

theorem combineOperandsOk_iff (ctx : Byte) (s : State) :
    combineOperandsOk ctx s = true ↔
      ctx.toNat < s.cfg.nSubch.toNat ∧ (s.a[0]).toNat < 2 ^ 25 ∧
        (msgAlloc s.cfg (msgOfWord (s.a[0]))).ok = true := by
  rw [combineOperandsOk, Bool.and_eq_true, Bool.and_eq_true, decide_eq_true_eq, msgReservedZero_iff, and_assoc]
  rfl

/-- Operands that fail a check end with `BAD_OPERAND` and nothing else. -/
theorem opCombine_of_refused (C : Config) {ctx : Byte} {s : State} (hv : s.cfgValid = true)
    (h : combineOperandsOk ctx s = false) : opCombine C ctx s = { s with status := 0x32 } := by
  rw [opCombine, State.whenConfigured_of_valid hv, h]
  rfl

/-- Settles O27: each bad operand fails one of the three checks. -/
theorem combineRefusesOperands : Obligations.CombineRefusesOperands := by
  intro s ctx
  refine ⟨(exec_of_unconfigured · nofun nofun), fun hv hbad => ?_⟩
  have hrefused : combineOperandsOk ctx s = false := by
    rw [Bool.eq_false_iff, Ne, combineOperandsOk_iff]
    rintro ⟨hctx, hreserved, hriv⟩
    rcases hbad with h | h | h
    · omega
    · omega
    · simp [hriv] at h
  rw [exec_eq_operate, operate, opCombine_of_refused _ hv hrefused]

/-! ### The parts of a combination (R172, R173) -/

theorem genOf_both (tie : Tie) : genOf tie true true = if tie = .fresh then .fresh else .combined := by
  cases tie <;> rfl

/-- A result is named exactly when an attempt succeeded. -/
theorem or_eq_true_iff_genOf_ne_none (tie : Tie) (okFresh okComb : Bool) :
    (okFresh || okComb) = true ↔ genOf tie okFresh okComb ≠ .none := by
  cases okFresh with
  | true => cases okComb <;> cases tie <;> simp [genOf]
  | false => cases okComb <;> simp [genOf]

theorem combBefore_of_reset {comb : SoftBuffer} {rti : Bool} {t : Word} (h : rti = false ∨ comb.tbs ≠ some t.toNat) :
    combBefore comb rti t = SoftBuffer.resetFor t := by
  rw [combBefore, if_pos (by simpa using h)]

theorem combBefore_of_kept {comb : SoftBuffer} {rti : Bool} {t : Word} (hrti : rti = true)
    (h : comb.tbs = some t.toNat) : combBefore comb rti t = comb := by
  rw [combBefore, if_neg (by simp [hrti, h])]

/-- The buffer that the combined attempt finds has the contents and the mark which the reset policy says (R174). -/
theorem combBefore_contents {comb : SoftBuffer} {rti : Bool} {t : Word} {prev : List SoftVec} {prevOk : Bool}
    (hreset : rti = false ∨ comb.tbs ≠ some t.toNat → prev = [] ∧ prevOk = false)
    (hkept : rti = true → comb.tbs = some t.toNat → prev = comb.acc ∧ prevOk = comb.ok) :
    prev = (combBefore comb rti t).acc ∧ prevOk = (combBefore comb rti t).ok := by
  by_cases h : rti = true ∧ comb.tbs = some t.toNat
  · obtain ⟨hrti, htbs⟩ := h
    rw [combBefore_of_kept hrti htbs]
    exact hkept hrti htbs
  · have h' : rti = false ∨ comb.tbs ≠ some t.toNat := by rwa [not_and_or, Bool.not_eq_true] at h
    rw [combBefore_of_reset h']
    exact hreset h'

/-- Both buffers hold this occasion alone, and a second generation leaves the combined one empty: what the combined
attempt worked on is gone when it has ended (R172 steps 2 to 6). -/
theorem pairAfter_eq (C : Config) (p : BufferPair) (rti : Bool) (soft : SoftVec) (t : Word) :
    pairAfter C p rti soft t =
      { fresh := { tbs := some t.toNat, acc := [soft], ok := (fecAnswer C [soft] t).ok }
        comb := if rti then { tbs := some t.toNat, acc := [], ok := false }
          else { tbs := some t.toNat, acc := [soft], ok := (fecAnswer C [soft] t).ok } } := by
  cases rti with
  | true => rfl
  | false => rw [pairAfter, combBefore_of_reset (.inl rfl)]; rfl

/-- The entry a combination adds to the history when it stores a payload (R172). -/
def payloadWrites (f c : FecAnswer) (gen : Gen) (handle : Word) : List Event :=
  if gen = .none ∨ handle = 0 then [] else [.payloadWrite handle (if gen = .fresh then f.payload else c.payload)]

theorem State.writePayload_history (s : State) (x : Attempts) (gen : Gen) (handle : Word) :
    (s.writePayload x gen handle).history = s.history ++ payloadWrites x.fresh x.comb gen handle := by
  by_cases h : handle = 0#32
  · simp [State.writePayload, payloadWrites, h]
  · cases gen <;> simp [State.writePayload, payloadWrites, h]

/-! ### What COMBINE does on operands that pass its checks, said once (R172) -/

/-- COMBINE on context `ctx` of `s` passes its checks; the occasion has the size `size` and the soft vector `soft`, and
the combined attempt finds the buffer `comb`. -/
structure Occasion (C : Config) (ctx : Byte) (s : State) (size : Word) (soft : SoftVec) (comb : SoftBuffer) : Prop where
  configured : s.cfgValid = true
  accepted : combineOperandsOk ctx s = true
  size_eq : occasionTbs C s.cfg (msgOfWord (s.a[0])) = size
  soft_eq : C.dataRx s.asks (s.a[2]) (msgOfWord (s.a[0])) (s.a[1]) (s.a[3]) = soft
  comb_eq : combBefore (s.pair ctx.toNat).comb (msgOfWord (s.a[0])).rti size = comb

/-- The state after an occasion whose attempts answered `f` and `c`. -/
def State.combined (s : State) (C : Config) (ctx : Byte) (size : Word) (soft : SoftVec) (comb : SoftBuffer)
    (f c : FecAnswer) : State :=
  let m := msgOfWord (s.a[0])
  let gen := genOf C.hcTie f.ok c.ok
  { s with
    r := (s.r.set 0 (outWord (f.ok || c.ok) gen comb.ok)).set 1 size
    status := if f.ok || c.ok then 0x00 else 0x11
    pairs := (s.setPair ctx.toNat (pairAfter C (s.pair ctx.toNat) m.rti soft size)).pairs
    asks := s.asks + 1
    history := s.history ++
      [.dataRx (s.a[2]) m (s.a[1]) (s.a[3]) soft, .fecDec [soft] size.toNat f.payload f.ok,
       .fecDec (comb.acc ++ [soft]) size.toNat c.payload c.ok] ++
      payloadWrites f c gen (s.a[4]) }

section
variable {C : Config} {ctx : Byte} {s : State} {size : Word} {soft : SoftVec} {comb : SoftBuffer}

theorem Occasion.combine_history (h : Occasion C ctx s size soft comb) :
    (combine C ctx.toNat (msgOfWord (s.opA 0)) (s.opA 1) (s.opA 2) (s.opA 3) (s.opA 4) s).state.history =
      (s.combined C ctx size soft comb (fecAnswer C [soft] size) (fecAnswer C (comb.acc ++ [soft]) size)).history := by
  obtain ⟨-, -, rfl, rfl, rfl⟩ := h
  simp only [combine, State.combined, State.writePayload_history, State.setPair_history, State.noteFec,
    State.note_history, askDataRx_state, askDataRx_answer, List.append_assoc]
  rfl

theorem combineStatus_word (success : Bool) :
    (if success then Status.ok else Status.dataFail).word = if success then 0x00 else 0x11 := by
  cases success <;> rfl

/-- COMBINE on accepted operands asks both attempts, reports by the tie parameter and leaves the pair reset as
R172 says. -/
theorem Occasion.opCombine_eq (h : Occasion C ctx s size soft comb) :
    opCombine C ctx s =
      s.combined C ctx size soft comb (fecAnswer C [soft] size) (fecAnswer C (comb.acc ++ [soft]) size) := by
  have hhistory := h.combine_history
  obtain ⟨hv, hok, rfl, rfl, rfl⟩ := h
  simp only [opCombine, State.whenConfigured_of_valid hv, if_pos hok, State.finish_eq_answer, State.setR_answer]
  rw [combine_frame, combine_pairs, hhistory, State.answer, combineStatus_word]
  rfl

theorem Occasion.pair_eq (h : Occasion C ctx s size soft comb) (hctx : ctx.toNat < 20) :
    (opCombine C ctx s).pair ctx.toNat = pairAfter C (s.pair ctx.toNat) (msgOfWord (s.a[0])).rti soft size := by
  rw [h.opCombine_eq]
  exact State.pair_setPair_self s hctx _

theorem Occasion.pair_other (h : Occasion C ctx s size soft comb) {c : Nat} (hc : c ≠ ctx.toNat) :
    (opCombine C ctx s).pair c = s.pair c := by
  rw [h.opCombine_eq]
  exact State.pair_setPair_other s _ hc.symm

end

/-- Everything COMBINE can do: it ends with a status alone, or processes an occasion. -/
theorem opCombine_cases (C : Config) (ctx : Byte) (s : State) :
    (∃ status, opCombine C ctx s = { s with status := status }) ∨
    ∃ size soft comb, Occasion C ctx s size soft comb := by
  rcases s.whenConfigured_cases _ with ⟨-, hclosed⟩ | ⟨hv, -⟩
  · exact .inl ⟨_, hclosed⟩
  · cases hok : combineOperandsOk ctx s with
    | false => exact .inl ⟨_, opCombine_of_refused C hv hok⟩
    | true => exact .inr ⟨_, _, _, hv, hok, rfl, rfl, rfl⟩

/-- Settles O29: without an occasion only STATUS differs; an occasion writes the fields named and one pair. -/
theorem combineFrame : Obligations.CombineFrame := by
  intro s t ctx hexec
  rw [exec_eq_operate, operate] at hexec
  obtain rfl := Host.Outcome.next.inj hexec
  rcases opCombine_cases Config.hw ctx s with ⟨status, hrefused⟩ | ⟨size, soft, comb, hocc⟩
  · rw [hrefused]
    exact ⟨rfl, fun _ _ => rfl, fun _ _ => rfl⟩
  · refine ⟨?_, fun i hi => ?_, fun c hc => hocc.pair_other hc⟩ <;> rw [hocc.opCombine_eq]
    · rfl
    · have h0 : (0 : Nat) ≠ i := by omega
      have h1 : (1 : Nat) ≠ i := by omega
      simp [State.combined, h0, h1]

/-- Settles O31: the tie parameter enters the reported generation, and with it the payload stored, but no other part. -/
theorem tieDecidesReportOnly : Obligations.TieDecidesReportOnly := by
  intro C x y c m sid slot ce handle s p q
  refine ⟨rfl, rfl, rfl, ?_, or_eq_true_iff_genOf_ne_none _ _ _⟩
  rw [combine_pairs, combine_pairs]
  rfl

/-- Settles O30: the first generation leaves its soft vector, unmarked, in the combined buffer under its size; the
second generation has the same size, so its combined attempt finds it there. -/
theorem twoGenerationCoverage : Obligations.TwoGenerationCoverage := by
  intro C s u ctx size soft1 soft2 hvs hvu hcfg hctx hoks hoku hfirst hsecond hsizes hsizeu hsoft1 hsoft2 hfail hdecode
    hpair
  have hfirstOcc : Occasion C ctx s size soft1 (.resetFor size) :=
    ⟨hvs, hoks, hsizes, hsoft1, combBefore_of_reset (.inl hfirst)⟩
  have hkept : (u.pair ctx.toNat).comb = { tbs := some size.toNat, acc := [soft1], ok := false } := by
    rw [hpair, hfirstOcc.pair_eq hctx, pairAfter_eq, hfirst, fecAnswer, hfail]
    rfl
  have hsecondOcc : Occasion C ctx u size soft2 (u.pair ctx.toNat).comb :=
    ⟨hvu, hoku, hcfg ▸ hsizeu, hsoft2, combBefore_of_kept hsecond (by rw [hkept])⟩
  constructor
  · rw [hfirstOcc.opCombine_eq]
    simp [State.combined, SoftBuffer.resetFor, fecAnswer, hfail]
  · rw [hsecondOcc.opCombine_eq]
    simp [State.combined, hkept, fecAnswer, hdecode]

/-- Settles O28: `prev` and `prevOk` are the buffer that the combined attempt finds, whether reset or kept. -/
theorem combineFollowsResetPolicy : Obligations.CombineFollowsResetPolicy := by
  intro s ctx m size soft prev prevOk f c hv hpool hctx hreserved hm hriv hsize hsoft hreset hkept hf hc
  subst hm
  obtain ⟨rfl, rfl⟩ := combBefore_contents hreset hkept
  have hocc : Occasion Config.hw ctx s size soft _ :=
    ⟨hv, (combineOperandsOk_iff ctx s).mpr ⟨hpool, hreserved, hriv⟩, hsize.symm, hsoft.symm, rfl⟩
  refine ⟨opCombine Config.hw ctx s, genOf Config.hw.hcTie f.ok c.ok, exec_eq_operate _ s, fun hfok hcok => ?_,
    fun hfok hcok => ?_, fun hfok hcok => ?_, fun hfok hcok => ?_, ?_, ?_, ?_, fun d hd => hocc.pair_other hd⟩
  · rw [hfok, hcok, genOf_both]
  · rw [hfok, hcok, genOf]
  · rw [hfok, hcok, genOf]
  · rw [hfok, hcok, genOf]
  · rw [hocc.opCombine_eq, ← hf, ← hc]
    rfl
  · rw [hocc.pair_eq hctx, pairAfter_eq, hf]
  · rw [hocc.pair_eq hctx, pairAfter_eq, hc]
    cases hrti : (msgOfWord (s.a[0])).rti with
    | true => rfl
    | false => rw [combBefore_of_reset (.inl rfl)]; rfl

end Sys2Proof.Machine

namespace Sys2Proof.Machine

/-! ### Reading the state back -/

/-- Any counter after one was incremented (R40). -/
theorem State.count_counter (s : State) (k j : Counter) :
    (s.count k).counter j = if j = k then s.counter j + 1 else s.counter j := by
  by_cases h : j = k
  · rw [if_pos h, h, State.count_counter_self]
  · rw [if_neg h, State.count_counter_other s (Ne.symm h)]

theorem State.release_history (s : State) (h : Word) :
    (s.release h).history = s.history ++ if h = 0 then [] else [.dealloc h] := by
  rcases s.release_cases h with ⟨hnone, e⟩ | ⟨hheld, e⟩
  · rw [e, if_pos hnone, List.append_nil]
  · rw [e, if_neg hheld, State.note_history]

@[simp] theorem State.setSub_counter (s : State) (p tb : Nat) (sp : SubProc) (k : Counter) :
    (s.setSub p tb sp).counter k = s.counter k := rfl

@[simp] theorem State.answer_counter (s : State) (r : Vector Word 8) (st : Status) (k : Counter) :
    (s.answer r st).counter k = s.counter k := rfl

@[simp] theorem State.answer_asks (s : State) (r : Vector Word 8) (st : Status) : (s.answer r st).asks = s.asks := rfl

@[simp] theorem State.answer_history (s : State) (r : Vector Word 8) (st : Status) :
    (s.answer r st).history = s.history := rfl

@[simp] theorem State.answer_sub (s : State) (r : Vector Word 8) (st : Status) (p tb : Nat) :
    (s.answer r st).sub p tb = s.sub p tb := rfl

/-! ### The checks of NEWGRANT and TBDECODED (R192, R195) -/

theorem addressInRange_iff (C : Config) (p tb : Nat) :
    addressInRange C p tb = true ↔ p ≤ C.nProc ∧ tb < C.nTb := by
  rw [addressInRange, Bool.and_eq_true, decide_eq_true_eq, decide_eq_true_eq]

theorem addressInRange_eq_false {C : Config} {p tb : Nat} (h : C.nProc < p ∨ C.nTb ≤ tb) :
    addressInRange C p tb = false := by
  rw [Bool.eq_false_iff, Ne, addressInRange_iff]
  omega

/-- An address out of range is counted and answered, by both operations. -/
theorem badAddress_eq (s : State) :
    (s.count .badPid).finish .badPid =
      { s with counters := s.counters.set 4 (s.counters[4] + 1), status := 0x30 } := rfl

/-- `GrantReady` for any configuration record. -/
def ReadyFor (C : Config) (s : State) (pid tb : Byte) : Prop :=
  s.cfgValid = true ∧ pid.toNat ≤ C.nProc ∧ tb.toNat < C.nTb ∧ (s.a[2]).toNat < 32

theorem grantReady_iff (s : State) (pid tb : Byte) : GrantReady s pid tb ↔ ReadyFor Config.hw s pid tb := Iff.rfl

theorem ReadyFor.bounds {C : Config} {s : State} {pid tb : Byte} (h : ReadyFor C s pid tb) :
    pid.toNat < 255 ∧ tb.toNat < 2 := by
  obtain ⟨-, hpid, htb, -⟩ := h
  exact addressInRange_bounds ((addressInRange_iff C _ _).mpr ⟨hpid, htb⟩)

section
variable {C : Config} {s : State} {pid tb : Byte} (kind : Kind) (ndiPresent ndi : Bool)

theorem opNewgrant_of_badAddress (hv : s.cfgValid = true) (h : C.nProc < pid.toNat ∨ C.nTb ≤ tb.toNat) :
    opNewgrant C pid tb kind ndiPresent ndi s = (s.count .badPid).finish .badPid := by
  rw [opNewgrant, State.whenConfigured_of_valid hv, addressInRange_eq_false h]
  rfl

theorem opNewgrant_of_reserved (hv : s.cfgValid = true) (hpid : pid.toNat ≤ C.nProc) (htb : tb.toNat < C.nTb)
    (h : 32 ≤ (s.a[2]).toNat) : opNewgrant C pid tb kind ndiPresent ndi s = s.finish .badOperand := by
  have hreserved : ¬ gntReservedZero (s.opA 2) = true := by
    rw [gntReservedZero_iff]
    exact Nat.not_lt.mpr h
  rw [opNewgrant, State.whenConfigured_of_valid hv, if_pos ((addressInRange_iff C _ _).mpr ⟨hpid, htb⟩),
    if_neg hreserved]

theorem opNewgrant_of_ready (h : ReadyFor C s pid tb) :
    opNewgrant C pid tb kind ndiPresent ndi s =
      (newGrant C pid.toNat tb.toNat (grantOfOperands kind ndiPresent ndi (s.a[0]) (s.a[1]) (s.a[2])) s).results := by
  obtain ⟨hv, hpid, htb, hreserved⟩ := h
  rw [opNewgrant, State.whenConfigured_of_valid hv, if_pos ((addressInRange_iff C _ _).mpr ⟨hpid, htb⟩)]
  exact if_pos ((gntReservedZero_iff _).mpr hreserved)

end

/-- Everything NEWGRANT can do: it answers alone, counts a bad address, or handles a grant. -/
theorem opNewgrant_cases (C : Config) (pid tb : Byte) (kind : Kind) (ndiPresent ndi : Bool) (s : State) :
    (∃ st, opNewgrant C pid tb kind ndiPresent ndi s = s.finish st) ∨
    opNewgrant C pid tb kind ndiPresent ndi s = (s.count .badPid).finish .badPid ∨
    ∃ g, opNewgrant C pid tb kind ndiPresent ndi s = (newGrant C pid.toNat tb.toNat g s).results := by
  cases hv : s.cfgValid with
  | false => exact .inl ⟨_, State.whenConfigured_of_invalid hv _⟩
  | true =>
    by_cases haddr : pid.toNat ≤ C.nProc ∧ tb.toNat < C.nTb
    · obtain ⟨hpid, htb⟩ := haddr
      by_cases hreserved : (s.a[2]).toNat < 32
      · exact .inr (.inr ⟨_, opNewgrant_of_ready kind ndiPresent ndi ⟨hv, hpid, htb, hreserved⟩⟩)
      · exact .inl ⟨_, opNewgrant_of_reserved kind ndiPresent ndi hv hpid htb (Nat.not_lt.mp hreserved)⟩
    · exact .inr (.inl (opNewgrant_of_badAddress kind ndiPresent ndi hv (by omega)))

/-- Settles O33: the address passes, the reserved bits do not. -/
theorem newgrantRefusesReservedBits : Obligations.NewgrantRefusesReservedBits := by
  intro s pid tb kind ndiPresent ndi hv hpid htb hreserved
  rw [exec_eq_operate, operate, opNewgrant_of_reserved kind ndiPresent ndi hv hpid htb hreserved]
  rfl

/-! ### TBDECODED (R200) -/

section
variable {C : Config} {s : State} {pid tb : Byte}

theorem opTbdecoded_of_badAddress (hv : s.cfgValid = true) (h : C.nProc < pid.toNat ∨ C.nTb ≤ tb.toNat)
    (ack : Bool) : opTbdecoded C pid tb ack s = (s.count .badPid).finish .badPid := by
  rw [opTbdecoded, State.whenConfigured_of_valid hv, addressInRange_eq_false h]
  rfl

/-- TBDECODED on an address in range answers with the status of the delivery. -/
theorem opTbdecoded_of_inRange (hv : s.cfgValid = true) (hpid : pid.toNat ≤ C.nProc) (htb : tb.toNat < C.nTb)
    {ack : Bool} {st : Status} {t : State} (h : tbDecoded pid.toNat tb.toNat ack s = { status := st, state := t }) :
    opTbdecoded C pid tb ack s = t.finish st := by
  rw [opTbdecoded, State.whenConfigured_of_valid hv, if_pos ((addressInRange_iff C _ _).mpr ⟨hpid, htb⟩), h]

end

theorem tbDecoded_of_not_awaited {p tb : Nat} {s : State} (h : (s.sub p tb).state ≠ .awaitingDecode) (ack : Bool) :
    tbDecoded p tb ack s = { status := .badOperand, state := s } := if_neg h

theorem tbDecoded_of_success {p tb : Nat} {s : State} (h : (s.sub p tb).state = .awaitingDecode) :
    tbDecoded p tb true s = { status := .ok, state := deliver p tb s } := if_pos h

theorem tbDecoded_of_failure {p tb : Nat} {s : State} (h : (s.sub p tb).state = .awaitingDecode) :
    tbDecoded p tb false s = { status := .dataFail, state := giveBack p tb s } := if_pos h

theorem lastKind_of_last {sp : SubProc} {g : Grant} (h : sp.last = some g) : lastKind sp = g.kind := by
  rw [lastKind, h]
  rfl

/-- Settles O32: both operations check the address before anything else. -/
theorem badAddressIsCountedDrop : Obligations.BadAddressIsCountedDrop := by
  intro s pid tb kind ndiPresent ndi ack hv haddr
  constructor
  · rw [exec_eq_operate, operate, opNewgrant_of_badAddress kind ndiPresent ndi hv haddr, badAddress_eq]
  · rw [exec_eq_operate, operate, opTbdecoded_of_badAddress hv haddr ack, badAddress_eq]

/-- Settles O40, check by check; an awaited decode ends in `deliver` or in `giveBack`, each of which writes the
addressed sub-process alone. -/
theorem tbdecodedDeliversOrDiscards : Obligations.TbdecodedDeliversOrDiscards := by
  rintro s pid tb sp rfl
  refine ⟨fun hv ack => exec_of_unconfigured hv nofun nofun, fun hv haddr ack => ?_, fun hv hpid htb => ?_⟩
  · rw [exec_eq_operate, operate, opTbdecoded_of_badAddress hv haddr ack, badAddress_eq]
  · obtain ⟨hp, ht⟩ := addressInRange_bounds ((addressInRange_iff Config.hw _ _).mpr ⟨hpid, htb⟩)
    refine ⟨fun hidle ack => ?_, fun g hwait hlast => ⟨_, exec_eq_operate _ s, ?_⟩,
      fun hwait => ⟨_, exec_eq_operate _ s, ?_⟩⟩
    · rw [exec_eq_operate, operate, opTbdecoded_of_inRange hv hpid htb (tbDecoded_of_not_awaited hidle ack)]
      rfl
    · rw [operate, opTbdecoded_of_inRange hv hpid htb (tbDecoded_of_success hwait), ← lastKind_of_last hlast]
      exact ⟨rfl, State.sub_setSub_self _ hp ht _, fun p u hne => State.sub_setSub_other _ _ hne.symm⟩
    · rw [operate, opTbdecoded_of_inRange hv hpid htb (tbDecoded_of_failure hwait)]
      exact ⟨rfl, State.sub_setSub_self _ hp ht _, fun p u hne => State.sub_setSub_other _ _ hne.symm⟩

/-! ### The parts of grant handling (R194, R195) -/

/-- The three conditions of a reset, without the order in which they are tested (R195 step 2). -/
theorem grantResets_iff (sp : SubProc) (g : Grant) :
    grantResets sp g = true ↔ StartsNew sp g ∨ ¬ Continues sp g ∨ sp.sb.tbs ≠ some g.tbs.toNat := by
  have hdiscont := isDiscont_iff sp g
  rw [← isNew_iff] at hdiscont ⊢
  simp only [grantResets, isResized, Bool.or_eq_true, Bool.and_eq_true, Bool.not_eq_true', ← Bool.not_eq_true,
    hdiscont, bne_iff_ne]
  tauto

theorem not_grantResets_iff (sp : SubProc) (g : Grant) :
    ¬ grantResets sp g = true ↔ ¬ StartsNew sp g ∧ Continues sp g ∧ sp.sb.tbs = some g.tbs.toNat := by
  rw [grantResets_iff, not_or, not_or, not_not, ne_eq, not_not]

/-- The state in which a buffer is asked for: a reset has returned the held one, a discontinuity is counted
(R195 step 2). -/
def State.prepared (s : State) (sp : SubProc) (g : Grant) : State :=
  let s1 := if grantResets sp g then s.release sp.payload else s
  if isDiscont sp g then s1.count .discont else s1

theorem newGrant_of_repeats (C : Config) {p tb : Nat} {g : Grant} {s : State} (h : Repeats (s.sub p tb) g) :
    newGrant C p tb g s = duplicateGrant C p tb s := if_pos ((isDuplicate_iff _ _).mpr h)

theorem newGrant_of_not_repeats (C : Config) {p tb : Nat} {g : Grant} {s : State} (h : ¬ Repeats (s.sub p tb) g) :
    newGrant C p tb g s =
      allocateGrant C p tb (recorded (s.sub p tb) g) (grantResets (s.sub p tb) g) (s.prepared (s.sub p tb) g) :=
  if_neg (mt (isDuplicate_iff _ _).mp h)

/-- A repetition past the bound resets the sub-process (R199). -/
theorem duplicateGrant_past {C : Config} {p tb : Nat} {s : State}
    (h : C.dupLimit < ((s.sub p tb).dupCnt + 1).toNat) :
    duplicateGrant C p tb s =
      { status := .dupReset, act := { decodeEnabled := false, defaultAck := true, sbReset := false }, handle := 0
        state := (((s.count .dup).release (s.sub p tb).payload).setSub p tb
          ((s.sub p tb).cleared (s.sub p tb).tbs)).count .dupReset } := if_pos h

/-- A repetition within the bound is counted (R199). -/
theorem duplicateGrant_within {C : Config} {p tb : Nat} {s : State}
    (h : ¬ C.dupLimit < ((s.sub p tb).dupCnt + 1).toNat) :
    duplicateGrant C p tb s =
      { status := .duplicate, act := { decodeEnabled := false, defaultAck := true, sbReset := false }, handle := 0
        state := (s.count .dup).setSub p tb { s.sub p tb with dupCnt := (s.sub p tb).dupCnt + 1 } } := if_neg h

theorem allocateGrant_held (C : Config) (p tb : Nat) {sp : SubProc} (b : Bool) (s : State) (h : sp.payload ≠ 0) :
    allocateGrant C p tb sp b s = acceptGrant p tb sp sp.payload b s := if_neg h

theorem allocateGrant_asked {C : Config} {p tb : Nat} {sp : SubProc} {b : Bool} {s : State} (h : sp.payload = 0)
    (hanswer : C.alloc s.asks (bytesOf sp.tbs) ≠ 0) :
    allocateGrant C p tb sp b s =
      acceptGrant p tb sp (C.alloc s.asks (bytesOf sp.tbs)) b (askAlloc C s (bytesOf sp.tbs)).2 :=
  (if_pos h).trans (if_neg hanswer)

theorem allocateGrant_none {C : Config} {p tb : Nat} {sp : SubProc} {b : Bool} {s : State} (h : sp.payload = 0)
    (hanswer : C.alloc s.asks (bytesOf sp.tbs) = 0) :
    allocateGrant C p tb sp b s =
      { status := .allocFail, act := { decodeEnabled := false, defaultAck := false, sbReset := b }, handle := 0
        state := ((askAlloc C s (bytesOf sp.tbs)).2.count .allocFail).setSub p tb sp } :=
  (if_pos h).trans (if_pos hanswer)

section
variable {s : State} {sp : SubProc} {g : Grant}

@[simp] theorem State.prepared_r : (s.prepared sp g).r = s.r := by
  unfold State.prepared
  cases isDiscont sp g <;> cases grantResets sp g <;> simp

@[simp] theorem State.prepared_asks : (s.prepared sp g).asks = s.asks := by
  unfold State.prepared
  cases isDiscont sp g <;> cases grantResets sp g <;> simp

theorem State.prepared_counter {k : Counter} (hk : k ≠ .discont) : (s.prepared sp g).counter k = s.counter k := by
  unfold State.prepared
  cases isDiscont sp g <;> cases grantResets sp g <;> simp [State.count_counter_other _ hk.symm]

theorem State.prepared_discont :
    (s.prepared sp g).counter .discont =
      if isDiscont sp g = true then s.counter .discont + 1 else s.counter .discont := by
  unfold State.prepared
  cases isDiscont sp g <;> cases grantResets sp g <;> simp

/-- A lifecycle begins by giving a held buffer back (R194). -/
theorem State.prepared_history_of_resets (h : grantResets sp g = true) :
    (s.prepared sp g).history = s.history ++ if sp.payload = 0 then [] else [.dealloc sp.payload] := by
  rw [← State.release_history, State.prepared, if_pos h]
  split <;> rfl

theorem State.prepared_of_continues (h : ¬ grantResets sp g = true) : s.prepared sp g = s := by
  have hdiscont : ¬ isDiscont sp g = true := fun hd => h (by simp [grantResets, hd])
  rw [State.prepared, if_neg h, if_neg hdiscont]

end

/-- The results of a grant are result registers and STATUS: the action word, and the handle of an accepted one
(R195). -/
theorem GrantOut.results_of_ok (act : Action) (h : Word) (u : State) :
    (GrantOut.mk .ok act h u).results = u.answer ((u.r.set 0 (actWord act)).set 1 h) .ok := rfl

theorem GrantOut.results_of_ne_ok {st : Status} (hst : st ≠ .ok) (act : Action) (h : Word) (u : State) :
    (GrantOut.mk st act h u).results = u.answer (u.r.set 0 (actWord act)) st := by
  rw [GrantOut.results, if_neg hst]
  rfl

end Sys2Proof.Machine

namespace Sys2Proof.Machine

/-! ### The frame of NEWGRANT (R195) -/

theorem duplicateGrant_counter (C : Config) (p tb : Nat) (s : State) {k : Counter} (hdup : k ≠ .dup)
    (hreset : k ≠ .dupReset) : (duplicateGrant C p tb s).state.counter k = s.counter k := by
  by_cases h : C.dupLimit < ((s.sub p tb).dupCnt + 1).toNat
  · simp [duplicateGrant_past h, State.count_counter, hdup, hreset]
  · simp [duplicateGrant_within h, State.count_counter, hdup]

theorem allocateGrant_counter (C : Config) (p tb : Nat) (sp : SubProc) (b : Bool) (s : State) {k : Counter}
    (hfail : k ≠ .allocFail) : (allocateGrant C p tb sp b s).state.counter k = s.counter k := by
  by_cases hpay : sp.payload = 0
  · by_cases hanswer : C.alloc s.asks (bytesOf sp.tbs) = 0
    · rw [allocateGrant_none hpay hanswer]
      exact State.count_counter_other _ hfail.symm
    · rw [allocateGrant_asked hpay hanswer]
      rfl
  · rw [allocateGrant_held C p tb b s hpay]
    rfl

/-- Grant handling counts duplicates, their resets, discontinuities and missing buffers only (R195). -/
theorem newGrant_counter (C : Config) (p tb : Nat) (g : Grant) (s : State) {k : Counter} (hdup : k ≠ .dup)
    (hreset : k ≠ .dupReset) (hdiscont : k ≠ .discont) (hfail : k ≠ .allocFail) :
    (newGrant C p tb g s).state.counter k = s.counter k := by
  by_cases hrep : Repeats (s.sub p tb) g
  · rw [newGrant_of_repeats C hrep, duplicateGrant_counter C p tb s hdup hreset]
  · rw [newGrant_of_not_repeats C hrep, allocateGrant_counter C p tb _ _ _ hfail, State.prepared_counter hdiscont]

/-- A grant answers in `R0`, `R1` and STATUS (R195). -/
theorem GrantOut.results_answer (out : GrantOut) :
    ∃ r : Vector Word 8, out.results = out.state.answer r out.status ∧
      ∀ i : Fin 8, 2 ≤ i.val → r[i] = out.state.r[i] := by
  have hother : ∀ i : Fin 8, 2 ≤ i.val → (0 : Nat) ≠ i ∧ (1 : Nat) ≠ i := by omega
  obtain ⟨st, act, h, u⟩ := out
  by_cases hok : st = .ok
  · subst hok
    exact ⟨_, GrantOut.results_of_ok act h u, fun i hi => by simp [hother i hi]⟩
  · exact ⟨_, GrantOut.results_of_ne_ok hok act h u, fun i hi => by simp [hother i hi]⟩

/-- Settles O38: NEWGRANT answers alone, counts a bad address, or handles a grant, within that function's frame. -/
theorem newgrantFrame : Obligations.NewgrantFrame := by
  intro s t pid tb kind ndiPresent ndi hexec
  rw [exec_eq_operate, operate] at hexec
  obtain rfl := Host.Outcome.next.inj hexec
  rcases opNewgrant_cases Config.hw pid tb kind ndiPresent ndi s with ⟨st, h⟩ | h | ⟨g, h⟩ <;> rw [h]
  · exact ⟨rfl, fun _ _ => rfl, fun _ _ _ => rfl, fun _ _ => rfl, rfl⟩
  · refine ⟨rfl, fun _ _ => rfl, fun _ _ _ => rfl, fun k hk => State.count_counter_other s ?_, rfl⟩
    rcases hk with rfl | rfl | rfl | rfl <;> nofun
  · obtain ⟨r, hresults, hr⟩ := (newGrant Config.hw pid.toNat tb.toNat g s).results_answer
    rw [hresults]
    refine ⟨?_, fun i hi => ?_, fun p u hne => newGrant_sub_other Config.hw hne.symm g s, fun k hk => ?_,
      (newGrant_extends Config.hw pid.toNat tb.toNat g s).pushes⟩
    · rw [newGrant_frame]
      rfl
    · rw [newGrant_frame] at hr
      exact hr i hi
    · refine newGrant_counter Config.hw pid.toNat tb.toNat g s ?_ ?_ ?_ ?_ <;>
        rcases hk with rfl | rfl | rfl | rfl <;> nofun

/-! ### A grant that repeats no delivered block (R195 steps 2 to 5) -/

theorem actWord_refused (b : Bool) :
    actWord { decodeEnabled := false, defaultAck := false, sbReset := b } = if b then 4 else 0 := by
  cases b <;> rfl

theorem actWord_accepted (b : Bool) :
    actWord { decodeEnabled := true, defaultAck := false, sbReset := b } = if b then 5 else 1 := by
  cases b <;> rfl

/-- `t` is the end of a grant that asks for a buffer in the state `s` for the recorded sub-process `sp`: the payload
handle is `h`, 0 when none was to be had; `b` says that the soft buffer was reset. -/
structure Allocated (s t : State) (p tb : Nat) (sp : SubProc) (b : Bool) (h : Word) : Prop where
  sub_eq : t.sub p tb = { sp with payload := h, state := if h = 0 then sp.state else .awaitingDecode }
  status_eq : t.status = if h = 0 then 0x20 else 0x00
  r_eq : t.r = if h = 0 then s.r.set 0 (if b then 4 else 0) else (s.r.set 0 (if b then 5 else 1)).set 1 h
  counter_eq : ∀ k, t.counter k = if k = .allocFail ∧ h = 0 then s.counter k + 1 else s.counter k
  history_eq : t.history = s.history ++ if sp.payload = 0 then [.alloc (bytesOf sp.tbs) h] else []

section
variable {C : Config} {p tb : Nat} {sp : SubProc} {b : Bool} {s : State}

theorem allocated_of_none (hp : p < 255) (ht : tb < 2) (hpay : sp.payload = 0)
    (hanswer : C.alloc s.asks (bytesOf sp.tbs) = 0) :
    Allocated s (allocateGrant C p tb sp b s).results p tb sp b 0 := by
  rw [allocateGrant_none hpay hanswer, GrantOut.results_of_ne_ok (by decide), actWord_refused]
  refine ⟨(State.sub_setSub_self _ hp ht _).trans ?_, rfl, rfl, fun k => ?_, ?_⟩
  · rw [if_pos rfl, ← hpay]
  · simp only [and_true]
    exact State.count_counter _ _ _
  · rw [if_pos hpay, ← hanswer]
    rfl

/-- An accepted grant asks at most for its buffer. -/
theorem allocated_of_accepted (hp : p < 255) (ht : tb < 2) {h : Word} (h0 : h ≠ 0) {u : State} (hr : u.r = s.r)
    (hcounters : u.counters = s.counters)
    (hhistory : u.history = s.history ++ if sp.payload = 0 then [.alloc (bytesOf sp.tbs) h] else []) :
    Allocated s (acceptGrant p tb sp h b u).results p tb sp b h := by
  rw [acceptGrant, GrantOut.results_of_ok, actWord_accepted]
  refine ⟨(State.sub_setSub_self _ hp ht _).trans ?_, ?_, ?_, fun k => ?_, hhistory⟩
  · rw [if_neg h0]
  · rw [if_neg h0]
    rfl
  · rw [if_neg h0, ← hr]
    rfl
  · rw [if_neg (not_and_of_not_right (k = .allocFail) h0)]
    exact congrArg (·[k.index]) hcounters

/-- The buffer is the held one, or else what `Alloc` answers. -/
theorem allocateGrant_allocated (C : Config) (hp : p < 255) (ht : tb < 2) (sp : SubProc) (b : Bool) (s : State) :
    Allocated s (allocateGrant C p tb sp b s).results p tb sp b
      (if sp.payload = 0 then C.alloc s.asks (bytesOf sp.tbs) else sp.payload) := by
  by_cases hpay : sp.payload = 0
  · rw [if_pos hpay]
    by_cases hanswer : C.alloc s.asks (bytesOf sp.tbs) = 0
    · rw [hanswer]
      exact allocated_of_none hp ht hpay hanswer
    · rw [allocateGrant_asked hpay hanswer]
      exact allocated_of_accepted hp ht hanswer rfl rfl (by rw [if_pos hpay]; rfl)
  · rw [if_neg hpay, allocateGrant_held C p tb b s hpay]
    exact allocated_of_accepted hp ht hpay rfl rfl (by rw [if_neg hpay, List.append_nil])

end

/-- A recorded reset with the handle of its buffer is a lifecycle just begun. -/
theorem recorded_begunWith {sp : SubProc} {g : Grant} (hresets : grantResets sp g = true) (h : Word) :
    { recorded sp g with
      payload := h, state := if h = 0 then (recorded sp g).state else .awaitingDecode } = begunWith g h := by
  rw [recorded_of_resets hresets]
  rfl

/-- What a grant that begins a lifecycle leaves, whatever the reason for its reset (R194, R195). -/
structure Begun (s t : State) (p tb : Nat) (g : Grant) (h : Word) : Prop where
  sub_eq : t.sub p tb = begunWith g h
  status_eq : t.status = if h = 0 then 0x20 else 0x00
  r_eq : t.r = if h = 0 then s.r.set 0 4 else (s.r.set 0 5).set 1 h
  counter_eq : ∀ k, k ≠ .discont → t.counter k = if k = .allocFail ∧ h = 0 then s.counter k + 1 else s.counter k
  discont_eq : t.counter .discont =
    if isDiscont (s.sub p tb) g = true then s.counter .discont + 1 else s.counter .discont
  history_eq : t.history =
    s.history ++ (if (s.sub p tb).payload = 0 then [] else [.dealloc (s.sub p tb).payload]) ++
      [.alloc ((g.tbs.toNat + 7) / 8) h]

theorem newGrant_begun (C : Config) {p tb : Nat} (hp : p < 255) (ht : tb < 2) {g : Grant} {s : State}
    (hrep : ¬ Repeats (s.sub p tb) g) (hresets : grantResets (s.sub p tb) g = true) :
    Begun s (newGrant C p tb g s).results p tb g (C.alloc s.asks ((g.tbs.toNat + 7) / 8)) := by
  rw [newGrant_of_not_repeats C hrep]
  obtain ⟨hsub, hstatus, hr, hcounter, hhistory⟩ := allocateGrant_allocated C hp ht (recorded (s.sub p tb) g)
    (grantResets (s.sub p tb) g) (s.prepared (s.sub p tb) g)
  have hpay : (recorded (s.sub p tb) g).payload = 0 := by rw [recorded_of_resets hresets]; rfl
  have htbs : (recorded (s.sub p tb) g).tbs = g.tbs := by rw [recorded_of_resets hresets]; rfl
  rw [if_pos hpay, State.prepared_asks, htbs] at hsub hstatus hr hcounter
  rw [if_pos hpay, if_pos hpay, State.prepared_asks, htbs, State.prepared_history_of_resets hresets] at hhistory
  refine ⟨hsub.trans (recorded_begunWith hresets _), hstatus, ?_, fun k hk => ?_, ?_, hhistory⟩
  · rw [hr, hresets, State.prepared_r]
    rfl
  · rw [hcounter, State.prepared_counter hk]
    rfl
  · rw [hcounter, if_neg nofun, State.prepared_discont]

/-- Settles O34: a new transmission resets, and is no discontinuity. -/
theorem newTransmissionBeginsLifecycle : Obligations.NewTransmissionBeginsLifecycle := by
  rintro s pid tb kind ndiPresent ndi g h hready rfl hrep hnew rfl
  rw [grantReady_iff] at hready
  obtain ⟨hp, ht⟩ := hready.bounds
  have hdiscont : ¬ isDiscont (s.sub pid.toNat tb.toNat) _ = true := fun hd => ((isDiscont_iff _ _).mp hd).1 hnew
  have hbegun := newGrant_begun Config.hw hp ht hrep ((grantResets_iff _ _).mpr (.inl hnew))
  rw [← opNewgrant_of_ready kind ndiPresent ndi hready] at hbegun
  refine ⟨_, exec_eq_operate _ s, hbegun.sub_eq, hbegun.status_eq, hbegun.r_eq, fun k => ?_, hbegun.history_eq⟩
  by_cases hk : k = .discont
  · subst hk
    rw [if_neg nofun]
    exact hbegun.discont_eq.trans (if_neg hdiscont)
  · exact hbegun.counter_eq k hk

/-- Settles O35: either premise resets, and only the missing connection is a discontinuity. -/
theorem discontinuityForcesReset : Obligations.DiscontinuityForcesReset := by
  rintro s pid tb kind ndiPresent ndi g l sp h hready rfl rfl hrep hnew - rfl hreason
  rw [grantReady_iff] at hready
  obtain ⟨hp, ht⟩ := hready.bounds
  have hbegun := newGrant_begun Config.hw hp ht hrep ((grantResets_iff _ _).mpr (.inr hreason))
  rw [← opNewgrant_of_ready kind ndiPresent ndi hready] at hbegun
  exact ⟨_, exec_eq_operate _ s, hbegun.sub_eq, hbegun.status_eq, hbegun.r_eq, hbegun.counter_eq,
    fun hbreak => hbegun.discont_eq.trans (if_pos ((isDiscont_iff _ _).mpr ⟨hnew, hbreak⟩)),
    fun hcont => hbegun.discont_eq.trans (if_neg fun hd => ((isDiscont_iff _ _).mp hd).2 hcont), hbegun.history_eq⟩

/-- What a related grant of the right size leaves: the sub-process as it was but for its count, its last grant and its
buffer (R195, C7). -/
theorem newGrant_continued (C : Config) {p tb : Nat} (hp : p < 255) (ht : tb < 2) {g : Grant} {s : State}
    (hrep : ¬ Repeats (s.sub p tb) g) (hkept : ¬ grantResets (s.sub p tb) g = true) :
    Allocated s (newGrant C p tb g s).results p tb
      { s.sub p tb with nRetx := (s.sub p tb).nRetx + 1, first := false, last := some g, tbs := g.tbs } false
      (if (s.sub p tb).payload = 0 then C.alloc s.asks (bytesOf g.tbs) else (s.sub p tb).payload) := by
  rw [newGrant_of_not_repeats C hrep, recorded_of_continues hkept, State.prepared_of_continues hkept,
    Bool.eq_false_of_not_eq_true hkept]
  exact allocateGrant_allocated C hp ht _ false s

/-- Settles O36: a related grant of the declared size meets none of the conditions of a reset. -/
theorem retransmissionKeepsLifecycle : Obligations.RetransmissionKeepsLifecycle := by
  rintro s pid tb kind ndiPresent ndi g sp h hready rfl rfl hrep hnew hcont hsize rfl
  rw [grantReady_iff] at hready
  obtain ⟨hp, ht⟩ := hready.bounds
  have hfirst : (s.sub pid.toNat tb.toNat).first = false := Bool.eq_false_of_not_eq_true fun hf => hnew (.inr hf)
  have hend := newGrant_continued Config.hw hp ht hrep ((not_grantResets_iff _ _).mpr ⟨hnew, hcont, hsize⟩)
  rw [← opNewgrant_of_ready kind ndiPresent ndi hready] at hend
  obtain ⟨hsub, hstatus, hr, hcounter, hhistory⟩ := hend
  refine ⟨_, exec_eq_operate _ s, hsub.trans ?_, hstatus, hr, hcounter, hhistory⟩
  rw [hfirst]
  rfl

/-! ### A grant that repeats a delivered block (R195 step 1, R199) -/

theorem actWord_resignalled :
    actWord { decodeEnabled := false, defaultAck := true, sbReset := false } = 2 := rfl

/-- The operands are those of a NEWGRANT that passes its checks and repeats a block already delivered (R192, R199). -/
structure RepeatedGrant (C : Config) (s : State) (pid tb : Byte) (kind : Kind) (ndiPresent ndi : Bool) : Prop where
  ready : ReadyFor C s pid tb
  repeats : Repeats (s.sub pid.toNat tb.toNat) (grantOfOperands kind ndiPresent ndi (s.a[0]) (s.a[1]) (s.a[2]))

section
variable {C : Config} {s : State} {pid tb : Byte} {kind : Kind} {ndiPresent ndi : Bool}

/-- Within the bound NEWGRANT counts the repetition and re-signals the success. -/
theorem opNewgrant_of_duplicate (hgrant : RepeatedGrant C s pid tb kind ndiPresent ndi)
    (hbound : ¬ C.dupLimit < ((s.sub pid.toNat tb.toNat).dupCnt + 1).toNat) :
    opNewgrant C pid tb kind ndiPresent ndi s =
      ((s.count .dup).setSub pid.toNat tb.toNat
        { s.sub pid.toNat tb.toNat with dupCnt := (s.sub pid.toNat tb.toNat).dupCnt + 1 }).answer
          (s.r.set 0 2) .duplicate := by
  rw [opNewgrant_of_ready kind ndiPresent ndi hgrant.ready, newGrant_of_repeats C hgrant.repeats,
    duplicateGrant_within hbound, GrantOut.results_of_ne_ok (by decide), actWord_resignalled]
  rfl

/-- Past the bound NEWGRANT resets the sub-process. -/
theorem opNewgrant_of_duplicateReset (hgrant : RepeatedGrant C s pid tb kind ndiPresent ndi)
    (hbound : C.dupLimit < ((s.sub pid.toNat tb.toNat).dupCnt + 1).toNat) :
    opNewgrant C pid tb kind ndiPresent ndi s =
      ((((s.count .dup).release (s.sub pid.toNat tb.toNat).payload).setSub pid.toNat tb.toNat
        ((s.sub pid.toNat tb.toNat).cleared (s.sub pid.toNat tb.toNat).tbs)).count .dupReset).answer
          (s.r.set 0 2) .dupReset := by
  rw [opNewgrant_of_ready kind ndiPresent ndi hgrant.ready, newGrant_of_repeats C hgrant.repeats,
    duplicateGrant_past hbound, GrantOut.results_of_ne_ok (by decide), actWord_resignalled]
  simp

end

/-- Settles O37: the duplicate rule comes first, and past its bound the reset gives a held buffer back. -/
theorem duplicateIsNotDecodedAgain : Obligations.DuplicateIsNotDecodedAgain := by
  rintro s pid tb kind ndiPresent ndi g sp hready rfl rfl hrep
  rw [grantReady_iff] at hready
  obtain ⟨hp, ht⟩ := hready.bounds
  refine ⟨_, exec_eq_operate _ s, ?_⟩
  rw [operate]
  by_cases hbound : Config.hw.dupLimit < ((s.sub pid.toNat tb.toNat).dupCnt + 1).toNat
  · rw [if_pos hbound, opNewgrant_of_duplicateReset ⟨hready, hrep⟩ hbound]
    refine ⟨rfl, ?_, ?_, fun k hdup hreset => ?_, rfl, ?_, ?_, ?_⟩
    · simp
    · simp [State.count_counter]
    · simp [State.count_counter, hdup, hreset]
    · simp [State.count_counter]
    · rw [State.answer_sub, State.count_sub, State.sub_setSub_self _ hp ht]
      rfl
    · rw [State.answer_history, State.count_history, State.setSub_history, State.release_history, State.count_history]
  · rw [if_neg hbound, opNewgrant_of_duplicate ⟨hready, hrep⟩ hbound]
    exact ⟨rfl, rfl, s.count_counter_self .dup, fun k hdup _ => s.count_counter_other hdup.symm, rfl,
      s.count_counter_other (by decide), State.sub_setSub_self _ hp ht _, rfl⟩

/-! ### Repetitions in a row (R199) -/

/-- `t` comes from `s` by `j` repetitions that were all re-signalled: the operands stand, the sub-process is the old one
but for the count of them, and nothing was pushed. -/
structure Resignalled (s t : State) (pid tb : Byte) (j : Nat) : Prop where
  configured : t.cfgValid = s.cfgValid
  operands : t.a = s.a
  sub_eq : t.sub pid.toNat tb.toNat = { s.sub pid.toNat tb.toNat with dupCnt := BitVec.ofNat 32 j }
  pushes_eq : pushes t.history = pushes s.history

section
variable {C : Config} {s t : State} {pid tb : Byte} {kind : Kind} {ndiPresent ndi : Bool} {j : Nat}

theorem Resignalled.refl (h : (s.sub pid.toNat tb.toNat).dupCnt = 0) : Resignalled s s pid tb 0 :=
  ⟨rfl, rfl, by rw [show BitVec.ofNat 32 0 = _ from h.symm], rfl⟩

/-- The grant stays a repeated one: neither the checks nor the duplicate rule read the count. -/
theorem Resignalled.repeated (h : Resignalled s t pid tb j) (hgrant : RepeatedGrant C s pid tb kind ndiPresent ndi) :
    RepeatedGrant C t pid tb kind ndiPresent ndi := by
  obtain ⟨hready, hrepeats⟩ := hgrant
  constructor
  · unfold ReadyFor
    rwa [h.configured, h.operands]
  · rw [h.sub_eq, h.operands]
    exact hrepeats

/-- The next repetition is the `j + 1`st: the count has not wrapped. -/
theorem Resignalled.count_eq (h : Resignalled s t pid tb j) (hj : j < 2 ^ 32 - 1) :
    ((t.sub pid.toNat tb.toNat).dupCnt + 1).toNat = j + 1 := by
  rw [h.sub_eq]
  simp only [BitVec.toNat_add, BitVec.toNat_ofNat, BitVec.ofNat_eq_ofNat]
  omega

/-- One repetition more within the bound. -/
theorem Resignalled.next (h : Resignalled s t pid tb j) (hgrant : RepeatedGrant C s pid tb kind ndiPresent ndi)
    (hlimit : C.dupLimit < 2 ^ 32 - 1) (hj : j + 1 ≤ C.dupLimit) :
    Resignalled s (opNewgrant C pid tb kind ndiPresent ndi t) pid tb (j + 1) ∧
      (opNewgrant C pid tb kind ndiPresent ndi t).status = 0x40 := by
  obtain ⟨hp, ht⟩ := hgrant.ready.bounds
  have hbound : ¬ C.dupLimit < ((t.sub pid.toNat tb.toNat).dupCnt + 1).toNat := by
    rw [h.count_eq (by omega)]
    omega
  rw [opNewgrant_of_duplicate (h.repeated hgrant) hbound]
  refine ⟨⟨h.configured, h.operands, (State.sub_setSub_self _ hp ht _).trans ?_, h.pushes_eq⟩, rfl⟩
  rw [h.sub_eq, BitVec.ofNat_add]
  rfl

/-- `j` repetitions within the bound are all re-signalled. -/
theorem resignalled_iterate (hgrant : RepeatedGrant C s pid tb kind ndiPresent ndi)
    (hcount : (s.sub pid.toNat tb.toNat).dupCnt = 0) (hlimit : C.dupLimit < 2 ^ 32 - 1) (hj : j ≤ C.dupLimit) :
    Resignalled s ((opNewgrant C pid tb kind ndiPresent ndi)^[j] s) pid tb j := by
  induction j with
  | zero => exact .refl hcount
  | succ j ih =>
    rw [Function.iterate_succ_apply']
    exact ((ih (by omega)).next hgrant hlimit hj).1

/-- The repetition after the last one within the bound resets. -/
theorem Resignalled.past (h : Resignalled s t pid tb C.dupLimit)
    (hgrant : RepeatedGrant C s pid tb kind ndiPresent ndi) (hlimit : C.dupLimit < 2 ^ 32 - 1) :
    (opNewgrant C pid tb kind ndiPresent ndi t).status = 0x41 ∧
    pushes (opNewgrant C pid tb kind ndiPresent ndi t).history = pushes s.history ∧
    ((opNewgrant C pid tb kind ndiPresent ndi t).sub pid.toNat tb.toNat).ack = false := by
  obtain ⟨hp, ht⟩ := hgrant.ready.bounds
  have hbound : C.dupLimit < ((t.sub pid.toNat tb.toNat).dupCnt + 1).toNat := by
    rw [h.count_eq hlimit]
    omega
  rw [opNewgrant_of_duplicateReset (h.repeated hgrant) hbound]
  refine ⟨rfl, ?_, ?_⟩
  · rw [State.answer_history, State.count_history, State.setSub_history, (State.release_extends _ _).pushes]
    exact h.pushes_eq
  · rw [State.answer_sub, State.count_sub, State.sub_setSub_self _ hp ht]
    rfl

end

/-- Settles O39: the first `k - 1` repetitions are re-signalled, and the `k`th is so too or is the one that resets. -/
theorem duplicateBoundIsReached : Obligations.DuplicateBoundIsReached := by
  intro C s pid tb kind ndiPresent ndi k hv hpid htb hreserved hcount hlimit hrep hk hkmax
  have hgrant : RepeatedGrant C s pid tb kind ndiPresent ndi := ⟨⟨hv, hpid, htb, hreserved⟩, hrep⟩
  obtain ⟨-, hack, -⟩ := hrep
  obtain ⟨j, rfl⟩ : ∃ j, k = j + 1 := ⟨k - 1, by omega⟩
  have hbefore := resignalled_iterate (j := j) hgrant hcount hlimit (by omega)
  rw [Function.iterate_succ_apply']
  by_cases hwithin : j + 1 ≤ C.dupLimit
  · obtain ⟨hafter, hstatus⟩ := hbefore.next hgrant hlimit hwithin
    rw [if_pos hwithin, decide_eq_true hwithin, hafter.sub_eq]
    exact ⟨hstatus, hafter.pushes_eq, hack⟩
  · obtain rfl : j = C.dupLimit := by omega
    rw [if_neg hwithin, decide_eq_false hwithin]
    exact hbefore.past hgrant hlimit

/-! ### The transitions of a sub-process (R202) -/

/-- A delivered block that is repeated stands in one of two states. -/
theorem SubRecords.state_of_repeats {sp : SubProc} {g : Grant} (h : SubRecords sp) (hrep : Repeats sp g) :
    sp.state = .decodedOk ∨ sp.state = .awaitingDecode := by
  obtain ⟨-, hack, -⟩ := hrep
  cases hstate : sp.state with
  | empty => simp [h.emptyNotAcked hstate] at hack
  | awaitingDecode => exact .inr rfl
  | decodedOk => exact .inl rfl
  | decodedKo => simp [h.koNotAcked hstate] at hack

/-- Settles O41: the four outcomes of grant handling, the missing buffer with and without a reset before it. -/
theorem newgrantTransitions : Obligations.NewgrantTransitions := by
  intro C s p tb g hp ht howned hrecords out old new
  rcases newGrant_cases C hp ht g s with ⟨hrep, -, hstatus, hact, hsub⟩ | ⟨hrep, -, hstatus, hact, hsub⟩ |
    ⟨-, hpay, hstatus, hact, hsub⟩ | ⟨-, hstatus, hact, -, hsub⟩ <;>
    (have hdecode := congrArg Action.decodeEnabled hact; have hstate := congrArg SubProc.state hsub)
  · exact .inr (.inr (.inr (.inr ⟨hstatus, hdecode, hstate, hrecords.state_of_repeats hrep⟩)))
  · exact .inr (.inr (.inr (.inl ⟨hstatus, hdecode, hstate, hrecords.state_of_repeats hrep⟩)))
  · have hsbReset := congrArg Action.sbReset hact
    by_cases hresets : grantResets (s.sub p tb) g = true
    · rw [recorded_of_resets hresets] at hstate
      exact .inr (.inl ⟨hstatus, hdecode, hsbReset.trans hresets, hstate⟩)
    · rw [recorded_of_continues hresets] at hpay hstate
      have hidle : old ≠ .awaitingDecode := fun hwait => howned.mpr hwait hpay
      have hkept := Bool.eq_false_of_not_eq_true hresets
      exact .inr (.inr (.inl ⟨hstatus, hdecode, hsbReset.trans hkept, hstate, hidle⟩))
  · exact .inl ⟨hstatus, hdecode, hstate⟩

/-! ### The two generations of a block (R191, R193, R256, R257) -/

/-- Settles O51: the second generation's first-occasion time goes `gap` slots back from its own, to the first's. -/
theorem generationsShareProcess : Obligations.GenerationsShareProcess := by
  intro C slot tbs m hrti later m2
  have hback : later - m.gap.setWidth 32 = slot := BitVec.add_sub_cancel slot _
  refine ⟨?_, ?_, ⟨rfl, rfl, ?_, rfl⟩, ?_, rfl⟩
  · rw [rxPid, if_pos rfl, hback]
  · rw [rxPid, hrti]
    rfl
  · have hfirst : (rxGrant m tbs slot).t0 = slot := by simp [rxGrant, Grant.t0, hrti]
    exact hfirst.trans hback.symm
  · simp [rxGrant, hrti]

end Sys2Proof.Machine

namespace Sys2Proof.Machine

/-! ### Numbers with no prime factor but 2, 3 and 5 (R231) -/

/-- What is stripped is a power of the factor, however little the fuel. -/
theorem exists_eq_pow_mul_stripFactor (p fuel n : Nat) : ∃ a, n = p ^ a * stripFactor p fuel n := by
  induction fuel generalizing n with
  | zero => exact ⟨0, by rw [stripFactor, pow_zero, one_mul]⟩
  | succ fuel ih =>
    by_cases hdvd : n % p = 0
    · obtain ⟨a, ha⟩ := ih (n / p)
      refine ⟨a + 1, ?_⟩
      rw [stripFactor, if_pos hdvd, pow_succ', mul_assoc, ← ha, Nat.mul_div_cancel' (Nat.dvd_of_mod_eq_zero hdvd)]
    · exact ⟨0, by rw [stripFactor, if_neg hdvd, pow_zero, one_mul]⟩

/-- With fuel for the exponent, the whole power of the factor is stripped. -/
theorem stripFactor_of_eq_pow_mul {p m a n fuel : Nat} (hp : 1 < p) (hm : p.Coprime m) (hn : n = p ^ a * m)
    (hfuel : a ≤ fuel) : stripFactor p fuel n = m := by
  induction fuel generalizing a n with
  | zero =>
    obtain rfl : a = 0 := Nat.le_zero.mp hfuel
    rw [stripFactor, hn, pow_zero, one_mul]
  | succ fuel ih =>
    cases a with
    | zero =>
      have hrest : ¬ n % p = 0 := by
        rw [hn, pow_zero, one_mul]
        exact fun hmod => hp.ne' (hm.eq_one_of_dvd (Nat.dvd_of_mod_eq_zero hmod))
      rw [stripFactor, if_neg hrest, hn, pow_zero, one_mul]
    | succ a =>
      have hn' : n = p * (p ^ a * m) := by rw [hn, pow_succ', mul_assoc]
      have hquot : n / p = p ^ a * m := by rw [hn', Nat.mul_div_cancel_left _ (by omega)]
      rw [stripFactor, if_pos (by rw [hn', Nat.mul_mod_right]), ih hquot (by omega)]

theorem smooth5_iff (n : Int) :
    smooth5 n = true ↔
      1 ≤ n ∧ stripFactor 5 n.toNat (stripFactor 3 n.toNat (stripFactor 2 n.toNat n.toNat)) = 1 := by
  unfold smooth5
  split
  · simp only [Bool.false_eq_true, false_iff]
    omega
  · rw [beq_iff_eq, iff_and_self]
    omega

theorem smooth5_product (a b c : Nat) : smooth5 ((2 ^ a * 3 ^ b * 5 ^ c : Nat) : Int) = true := by
  have hpos : 0 < 2 ^ a * 3 ^ b * 5 ^ c := by positivity
  have h2 : 2 ^ a ∣ 2 ^ a * 3 ^ b * 5 ^ c := ⟨3 ^ b * 5 ^ c, mul_assoc ..⟩
  have h3 : 3 ^ b ∣ 2 ^ a * 3 ^ b * 5 ^ c := ⟨2 ^ a * 5 ^ c, by ring⟩
  have h5 : 5 ^ c ∣ 2 ^ a * 3 ^ b * 5 ^ c := ⟨2 ^ a * 3 ^ b, mul_comm ..⟩
  have hn : 2 ^ a * 3 ^ b * 5 ^ c = 2 ^ a * (3 ^ b * 5 ^ c) := mul_assoc ..
  rw [smooth5_iff, Int.toNat_natCast]
  generalize 2 ^ a * 3 ^ b * 5 ^ c = n at *
  have hfuel {p e : Nat} (hp : 1 < p) (hdvd : p ^ e ∣ n) : e ≤ n :=
    (Nat.lt_pow_self hp).le.trans (Nat.le_of_dvd hpos hdvd)
  have hcop (p : Nat) (hp3 : p.Coprime 3) (hp5 : p.Coprime 5) : p.Coprime (3 ^ b * 5 ^ c) :=
    (hp3.pow_right b).mul_right (hp5.pow_right c)
  rw [stripFactor_of_eq_pow_mul (by decide) (hcop 2 (by decide) (by decide)) hn (hfuel (by decide) h2),
    stripFactor_of_eq_pow_mul (by decide) (Nat.Coprime.pow_right c (by decide)) rfl (hfuel (by decide) h3),
    stripFactor_of_eq_pow_mul (by decide) (Nat.coprime_one_right 5) (mul_one _).symm (hfuel (by decide) h5)]
  exact ⟨by omega, rfl⟩

/-- Settles O42: the three strippings take one power each out of the number, and all of it when nothing else is in. -/
theorem smoothIsProductOfPowers : Obligations.SmoothIsProductOfPowers := by
  intro n
  refine ⟨fun hsmooth => ?_, fun ⟨a, b, c, hn⟩ => hn ▸ smooth5_product a b c⟩
  obtain ⟨hpos, hone⟩ := (smooth5_iff n).mp hsmooth
  obtain ⟨a, ha⟩ := exists_eq_pow_mul_stripFactor 2 n.toNat n.toNat
  obtain ⟨b, hb⟩ := exists_eq_pow_mul_stripFactor 3 n.toNat (stripFactor 2 n.toNat n.toNat)
  obtain ⟨c, hc⟩ := exists_eq_pow_mul_stripFactor 5 n.toNat (stripFactor 3 n.toNat (stripFactor 2 n.toNat n.toNat))
  have hprod : n.toNat = 2 ^ a * 3 ^ b * 5 ^ c := by
    rw [hone, mul_one] at hc
    rw [mul_assoc, ← hc, ← hb, ← ha]
  exact ⟨a, b, c, by omega⟩

end Sys2Proof.Machine

namespace Sys2Proof.Machine

/-! ### The search for an allocation length and an MCS (R232) -/

/-- An ascending search finds the first index with an answer. -/
theorem first_of_findSome?_range {α : Type} {f : Nat → Option α} {n : Nat} {x : α}
    (h : (List.range n).findSome? f = some x) : ∃ k, f k = some x ∧ ∀ j < k, f j = none := by
  induction n with
  | zero => cases h
  | succ n ih =>
    rw [List.range_succ, List.findSome?_append] at h
    rcases hearlier : (List.range n).findSome? f with _ | y
    · rw [hearlier, Option.none_or, List.findSome?_singleton] at h
      exact ⟨n, h, fun j hj => List.findSome?_eq_none_iff.mp hearlier j (List.mem_range.mpr hj)⟩
    · rw [hearlier, Option.some_or] at h
      exact ih (hearlier.trans h)

/-- An MCS index of the search holds `bits` on `nPrb` PRBs (R232). -/
def Sufficient (C : Config) (bits : Word) (nPrb : Int) (mcs : BitVec 5) : Prop :=
  mcs.toNat ≤ C.mcsMax ∧ bits.toNat ≤ (C.tbs mcs nPrb).toNat

/-- The MCS that is found is the smallest sufficient one. -/
theorem findMcs_smallest {C : Config} {nPrb : Int} {bits : Word} {mcs : BitVec 5}
    (h : findMcs C nPrb bits = some mcs) :
    Sufficient C bits nPrb mcs ∧ ∀ mcs', Sufficient C bits nPrb mcs' → mcs.toNat ≤ mcs'.toNat := by
  rw [findMcs, List.find?_map, Option.map_eq_some_iff] at h
  obtain ⟨j, hj, rfl⟩ := h
  obtain ⟨hholds, hmem, hsmaller⟩ := List.find?_range_eq_some.mp hj
  have hmax : j ≤ C.mcsMax := Nat.lt_succ_iff.mp (List.mem_range.mp hmem)
  have hindex : (BitVec.ofNat 5 j).toNat = j := by
    have := C.mcsMaxFin.isLt
    rw [BitVec.toNat_ofNat, Nat.mod_eq_of_lt (hmax.trans_lt this)]
  refine ⟨⟨hindex.trans_le hmax, of_decide_eq_true hholds⟩, fun mcs' ⟨_, hholds'⟩ => ?_⟩
  rw [hindex]
  by_contra hlt
  have hfails := hsmaller mcs'.toNat (Nat.not_le.mp hlt)
  rw [Function.comp_apply, BitVec.ofNat_toNat, BitVec.setWidth_eq, decide_eq_true hholds'] at hfails
  cases hfails

/-- No MCS is found only where none is sufficient. -/
theorem not_sufficient_of_findMcs_none {C : Config} {nPrb : Int} {bits : Word} (h : findMcs C nPrb bits = none)
    (mcs : BitVec 5) : ¬ Sufficient C bits nPrb mcs := by
  rintro ⟨hmax, hholds⟩
  have hmem : mcs ∈ (List.range (C.mcsMax + 1)).map (BitVec.ofNat 5) :=
    List.mem_map.mpr ⟨mcs.toNat, List.mem_range.mpr (Nat.lt_succ_of_le hmax), by simp⟩
  exact List.find?_eq_none.mp h mcs hmem (decide_eq_true hholds)

/-- The pair `(len, mcs)` has an admissible PRB count and a sufficient MCS (R231, R232). -/
def Fits (C : Config) (c : PoolCfg) (bits : Word) (len : Nat) (mcs : BitVec 5) : Prop :=
  smooth5 (dataPrbs C c len) = true ∧ Sufficient C bits (dataPrbs C c len) mcs

theorem candidateAt_smallest {C : Config} {c : PoolCfg} {bits : Word} {len : Nat} {x : Candidate}
    (h : candidateAt C c bits len = some x) :
    x.len = len ∧ Fits C c bits len x.mcs ∧ ∀ mcs, Fits C c bits len mcs → x.mcs.toNat ≤ mcs.toNat := by
  unfold candidateAt at h
  split at h
  case isTrue hsmooth =>
    obtain ⟨mcs, hmcs, rfl⟩ := Option.map_eq_some_iff.mp h
    obtain ⟨hsuff, hleast⟩ := findMcs_smallest hmcs
    exact ⟨rfl, ⟨hsmooth, hsuff⟩, fun mcs' ⟨_, hsuff'⟩ => hleast mcs' hsuff'⟩
  case isFalse => cases h

theorem not_fits_of_candidateAt_none {C : Config} {c : PoolCfg} {bits : Word} {len : Nat}
    (h : candidateAt C c bits len = none) (mcs : BitVec 5) : ¬ Fits C c bits len mcs := by
  rintro ⟨hsmooth, hsuff⟩
  rw [candidateAt, if_pos hsmooth, Option.map_eq_none_iff] at h
  exact not_sufficient_of_findMcs_none h mcs hsuff

/-- The candidate fits, and comes before every other pair that fits: by its length, then by its MCS. -/
theorem findCandidate_smallest {C : Config} {c : PoolCfg} {bits : Word} {x : Candidate}
    (h : findCandidate C c bits = some x) :
    Fits C c bits x.len x.mcs ∧ ∀ len mcs, 1 ≤ len → Fits C c bits len mcs →
      x.len < len ∨ (x.len = len ∧ x.mcs.toNat ≤ mcs.toNat) := by
  obtain ⟨k, hk, hearlier⟩ := first_of_findSome?_range h
  obtain ⟨hlen, hfits, hleast⟩ := candidateAt_smallest hk
  rw [hlen]
  refine ⟨hfits, fun len mcs hpos hfits' => ?_⟩
  obtain ⟨j, rfl⟩ : ∃ j, len = j + 1 := ⟨len - 1, by omega⟩
  rcases lt_trichotomy j k with hlt | rfl | hgt
  · exact absurd hfits' (not_fits_of_candidateAt_none (hearlier j hlt) mcs)
  · exact .inr ⟨rfl, hleast mcs hfits'⟩
  · exact .inl (Nat.succ_lt_succ hgt)

/-- No candidate is found only when no pair within the pool fits. -/
theorem not_fits_of_findCandidate_none {C : Config} {c : PoolCfg} {bits : Word} (h : findCandidate C c bits = none)
    {len : Nat} (hpos : 1 ≤ len) (hlen : len ≤ c.nSubch.toNat) (mcs : BitVec 5) : ¬ Fits C c bits len mcs := by
  obtain ⟨j, rfl⟩ : ∃ j, len = j + 1 := ⟨len - 1, by omega⟩
  exact not_fits_of_candidateAt_none (List.findSome?_eq_none_iff.mp h j (List.mem_range.mpr hlen)) mcs

end Sys2Proof.Machine

namespace Sys2Proof.Machine

/-! ### The outcomes of BUILDGRANT (R230, R232) -/

section
variable {C : Config} {s : State}

theorem txEligible_iff {slot : Word} : txEligible C slot = true ↔ slot.toNat % C.nodeCount = C.nodeId := by
  rw [txEligible, beq_iff_eq]

theorem buildGrant_of_not_eligible {slot : Word} (h : ¬ slot.toNat % C.nodeCount = C.nodeId) (bits : Word)
    (rti : Bool) : buildGrant C slot bits rti s = { status := .notEligible, msg := none, state := s } := by
  rw [buildGrant, Bool.eq_false_iff.mpr (txEligible_iff.not.mpr h)]
  rfl

theorem buildGrant_of_eligible {slot : Word} (h : slot.toNat % C.nodeCount = C.nodeId) (bits : Word) (rti : Bool) :
    buildGrant C slot bits rti s = if rti then buildSecond s else buildFirst C bits s := by
  rw [buildGrant, txEligible_iff.mpr h]
  rfl

theorem opBuildgrant_of_none {rti : Bool} {st : Status} {u : State} (hv : s.cfgValid = true)
    (h : buildGrant C (s.opA 0) (s.opA 1) rti s = { status := st, msg := none, state := u }) :
    opBuildgrant C rti s = u.finish st := by
  rw [opBuildgrant, State.whenConfigured_of_valid hv, h]

theorem opBuildgrant_of_some {rti : Bool} {st : Status} {m : SciMsg} {u : State} (hv : s.cfgValid = true)
    (h : buildGrant C (s.opA 0) (s.opA 1) rti s = { status := st, msg := some m, state := u }) :
    opBuildgrant C rti s = (u.grantResults C m).finish st := by
  rw [opBuildgrant, State.whenConfigured_of_valid hv, h]

/-- A slot of another node: nothing but the status. -/
theorem opBuildgrant_of_not_eligible (hv : s.cfgValid = true) (h : ¬ (s.a[0]).toNat % C.nodeCount = C.nodeId)
    (rti : Bool) : opBuildgrant C rti s = { s with status := 0x03 } :=
  opBuildgrant_of_none hv (buildGrant_of_not_eligible h _ rti)

/-- A request that finds nothing is counted, in either generation (R232, C10). -/
theorem opBuildgrant_of_noGrant {rti : Bool} (hv : s.cfgValid = true)
    (hslot : (s.a[0]).toNat % C.nodeCount = C.nodeId)
    (h : (if rti then buildSecond s else buildFirst C (s.a[1]) s) = noGrant s) :
    opBuildgrant C rti s = { s with counters := s.counters.set 7 (s.counters[7] + 1), status := 0x04 } :=
  opBuildgrant_of_none hv ((buildGrant_of_eligible hslot _ rti).trans h)

end

/-! ### The result registers of a grant (R84, R232) -/

/-- The result registers `new` hold the grant of the message `m`, sent on `len` subchannels from `start` on; the others
are as in `old` (R232). -/
structure Granted (C : Config) (c : PoolCfg) (m : SciMsg) (len start : Nat) (old new : Vector Word 8) : Prop where
  msg_eq : new[0] = msgWord m
  nPrb_eq : new[2] = BitVec.ofInt 32 (dataPrbs C c len)
  firstPrb_eq : new[3] = BitVec.ofNat 32 (c.startOff.toNat + start * c.width.toNat + C.ctrlPrb)
  size_eq : new[4] = C.tbs m.mcs (dataPrbs C c len)
  desc_eq : new[5] = descWord len start (C.qm m.mcs) true true
  kept : new[1] = old[1] ∧ new[6] = old[6] ∧ new[7] = old[7]

theorem State.grantResults_granted (s : State) (C : Config) (m : SciMsg) :
    Granted C s.cfg m (msgAlloc s.cfg m).len (msgAlloc s.cfg m).start s.r (s.grantResults C m).r := by
  constructor <;> simp [State.grantResults, txRequest, occasionTbs, firstDataPrb, subchannelFirst]

theorem State.grantResults_of_alloc {s : State} {m : SciMsg} {len start : Nat} {ok : Bool}
    (h : msgAlloc s.cfg m = { len := len, start := start, ok := ok }) (C : Config) :
    Granted C s.cfg m len start s.r (s.grantResults C m).r := by
  have hgranted := s.grantResults_granted C m
  rwa [h] at hgranted

/-! ### The first generation (R232, R233) -/

/-- The state after `start` is drawn for the candidate `x`: one question more, the message remembered (R233). -/
def State.remembering (s : State) (C : Config) (x : Candidate) (start : Nat) : State :=
  { s with
    txLast := some (builtMsg C s.cfg x start), asks := s.asks + 1
    history := s.history ++ [.rand (s.cfg.nSubch.toNat - x.len + 1) start] }

theorem buildFirst_of_none {C : Config} {bits : Word} {s : State} (h : findCandidate C s.cfg bits = none) :
    buildFirst C bits s = noGrant s := by
  rw [buildFirst, h]

/-- A candidate is built at the start that is drawn, which leaves it room. -/
theorem buildFirst_of_candidate {C : Config} {bits : Word} {s : State} {x : Candidate}
    (h : findCandidate C s.cfg bits = some x) :
    ∃ start, start ≤ s.cfg.nSubch.toNat - x.len ∧ buildFirst C bits s =
      { status := .ok, msg := some (builtMsg C s.cfg x start), state := s.remembering C x start } := by
  refine ⟨_, askRand_le C s (s.cfg.nSubch.toNat - x.len), ?_⟩
  rw [buildFirst, h]
  rfl

/-- Settles O43: the ascending search ends at the first pair that fits, if any, and the draw leaves it room. -/
theorem buildgrantTakesSmallestPair : Obligations.BuildgrantTakesSmallestPair := by
  intro s hv hn
  refine ⟨_, exec_eq_operate _ s, ?_⟩
  rw [operate]
  split_ifs with hslot
  · rcases hsearch : findCandidate Config.hw s.cfg (s.a[1]) with _ | x
    · refine .inr ⟨fun len mcs hpos hlen hmcs hsmooth => ?_,
        opBuildgrant_of_noGrant hv hslot (buildFirst_of_none hsearch)⟩
      by_contra hbits
      exact not_fits_of_findCandidate_none hsearch hpos hlen mcs ⟨hsmooth, hmcs, Nat.not_lt.mp hbits⟩
    · obtain ⟨⟨hsmooth, hmcs, hbits⟩, hleast⟩ := findCandidate_smallest hsearch
      obtain ⟨hpos, hlen, -⟩ := findCandidate_len hsearch
      obtain ⟨start, hstart, hbuild⟩ := buildFirst_of_candidate hsearch
      have hroom : x.len + start ≤ s.cfg.nSubch.toNat := by omega
      have halloc : msgAlloc (s.remembering Config.hw x start).cfg (builtMsg Config.hw s.cfg x start) =
          { len := x.len, start := start, ok := true } := msgAlloc_builtMsg Config.hw hn hpos hroom
      obtain ⟨hmsg, hnPrb, hfirstPrb, hsize, hdesc, hkept⟩ := State.grantResults_of_alloc halloc Config.hw
      rw [opBuildgrant_of_some hv ((buildGrant_of_eligible hslot _ false).trans hbuild)]
      exact .inl ⟨x.len, start, x.mcs, builtMsg Config.hw s.cfg x start, hpos, hroom, hmcs, hsmooth, hbits,
        fun len mcs hpos _ hmcs hsmooth hbits => hleast len mcs hpos ⟨hsmooth, hmcs, hbits⟩,
        rfl, rfl, hmsg, hnPrb, hfirstPrb, hsize, hdesc, hkept⟩
  · exact opBuildgrant_of_not_eligible hv hslot false

/-! ### The second generation (R232, R234) -/

theorem buildSecond_of_none {s : State} (h : s.txLast = none) : buildSecond s = noGrant s := by
  rw [buildSecond, h]

theorem buildSecond_of_some {s : State} {m : SciMsg} (h : s.txLast = some m) :
    buildSecond s = { status := .ok, msg := some { m with rti := true }, state := s } := by
  rw [buildSecond, h]

/-- Settles O44: the allocation of the remembered message does not depend on its `rti`. -/
theorem buildgrantRepeatsRemembered : Obligations.BuildgrantRepeatsRemembered := by
  intro s hv
  refine ⟨_, exec_eq_operate _ s, ?_⟩
  rw [operate]
  split_ifs with hslot
  · have hrepeat {m : SciMsg} (hm : s.txLast = some m) :
        opBuildgrant Config.hw true s = (s.grantResults Config.hw { m with rti := true }).finish .ok :=
      opBuildgrant_of_some hv ((buildGrant_of_eligible hslot _ true).trans (buildSecond_of_some hm))
    refine ⟨fun m hm => ?_, fun m len start hm hpos hfit hriv _ => ?_,
      fun hnone => opBuildgrant_of_noGrant hv hslot (buildSecond_of_none hnone)⟩
    · rw [hrepeat hm]
      obtain ⟨hmsg, -, -, hsize, -, hkept⟩ := s.grantResults_granted Config.hw { m with rti := true }
      exact ⟨rfl, hmsg, hsize, hkept⟩
    · rw [hrepeat hm]
      have halloc : msgAlloc s.cfg { m with rti := true } = { len := len, start := start, ok := true } := by
        rw [msgAlloc, hriv, rivDecode_rivEncode hpos hfit]
      obtain ⟨-, hnPrb, hfirstPrb, hsize, hdesc, -⟩ := State.grantResults_of_alloc halloc Config.hw
      exact ⟨hnPrb, hfirstPrb, hsize, hdesc⟩
  · exact opBuildgrant_of_not_eligible hv hslot true

end Sys2Proof.Machine

namespace Sys2Proof.Machine

/-! ### Power-on and RESET (R46, R250, R251) -/

@[simp] theorem State.reset_counter (k : Counter) : State.reset.counter k = 0 := by
  simp [State.reset, State.counter]

/-- Settles O45: the arrays read as their reset values everywhere, the other places hold theirs by definition. -/
theorem powerOnValues : Obligations.PowerOnValues :=
  ⟨fun i => by simp [State.reset], fun i => by simp [State.reset], rfl, rfl, rfl, rfl, rfl, State.reset_pair,
    State.reset_sub, rfl, rfl, State.reset_counter, rfl, rfl, rfl⟩

/-- What yields nothing from `n` on is collected by the first `n` numbers. -/
theorem flatMap_range_of_nil {α : Type} {f : Nat → List α} {n m : Nat} (h : n ≤ m) (hnil : ∀ k, n ≤ k → f k = []) :
    (List.range m).flatMap f = (List.range n).flatMap f := by
  obtain ⟨d, rfl⟩ := Nat.exists_eq_add_of_le h
  rw [List.range_add, List.flatMap_append, List.append_right_eq_self, List.flatMap_eq_nil_iff]
  intro k hk
  obtain ⟨j, -, rfl⟩ := List.mem_map.mp hk
  exact hnil _ (Nat.le_add_right n j)

theorem filterMap_range_of_none {α : Type} {f : Nat → Option α} {n m : Nat} (h : n ≤ m)
    (hnone : ∀ k, n ≤ k → f k = none) : (List.range m).filterMap f = (List.range n).filterMap f := by
  rw [List.filterMap_eq_flatMap_toList, List.filterMap_eq_flatMap_toList,
    flatMap_range_of_nil h fun k hk => by rw [hnone k hk, Option.toList_none]]

/-- The `Dealloc` of a held buffer, none for a sub-process without one. -/
def heldDealloc (sp : SubProc) : Option Event := if sp.payload = 0 then none else some (.dealloc sp.payload)

/-- RESET gives back what the processes that exist hold, in ascending order (R250). -/
theorem map_dealloc_heldHandles (C : Config) (s : State) :
    (heldHandles C s).map Event.dealloc =
      (List.range (C.nProc + 1)).flatMap fun p => (List.range C.nTb).filterMap fun tb => heldDealloc (s.sub p tb) := by
  have hp : C.nProc + 1 ≤ 255 := by
    have := C.nProcPred.isLt
    unfold Params.nProc
    omega
  have ht : C.nTb ≤ 2 := C.nTbPred.isLt
  have hone (p tb : Nat) : (if (s.sub p tb).payload != 0 && addressInRange C p tb then some (s.sub p tb).payload
      else none).map Event.dealloc = if addressInRange C p tb then heldDealloc (s.sub p tb) else none := by
    by_cases hpay : (s.sub p tb).payload = 0#32
    · simp [heldDealloc, hpay]
    · cases addressInRange C p tb <;> simp [heldDealloc, hpay]
  simp only [heldHandles, List.map_flatMap, List.map_filterMap, hone]
  rw [flatMap_range_of_nil hp fun p hp => ?_]
  · refine List.flatMap_congr fun p hp => ?_
    rw [filterMap_range_of_none ht fun tb ht => if_neg ?_]
    · refine List.filterMap_congr fun tb ht => if_pos ?_
      rw [List.mem_range] at hp ht
      exact (addressInRange_iff C p tb).mpr ⟨Nat.lt_succ_iff.mp hp, ht⟩
    · rw [addressInRange_eq_false (.inr ht)]
      decide
  · simp [addressInRange_eq_false (.inl hp)]

/-- Settles O46: what is cleared gets its reset value by definition. -/
theorem resetClearsAllButConfiguration : Obligations.ResetClearsAllButConfiguration :=
  fun s => ⟨opReset Config.hw s, exec_eq_operate .reset s, rfl,
    congrArg (s.history ++ ·) (map_dealloc_heldHandles Config.hw s)⟩

/-- Settles O56: WORK aside, no effect transmits, and an operation is one of its effects but for its answer. -/
theorem onlyWorkTransmits : Obligations.OnlyWorkTransmits := by
  intro i s t h hwork
  obtain ⟨u, r, st, heffect, rfl⟩ := Ends.exec h
  exact heffect.txTicks_eq hwork

/-! ### CONFIGURE (R252, R253) -/

theorem bitmapOperand_eq (s : State) {k : Nat} (j : Fin 4) (h : k / 32 = j.val) :
    bitmapOperand (s.a[2]) (s.a[3]) (s.a[4]) (s.a[5]) k = (s.a[j.val + 2]).getLsbD (k % 32) := by
  rw [bitmapOperand, h]
  fin_cases j <;> rfl

/-- Each operand field stands in its bits of the operand word (R84). -/
theorem operandCfg_fields (s : State) :
    (operandCfg s).nSubch.toNat = (s.a[0]).toNat % 256 ∧ (operandCfg s).width.toNat = (s.a[0]).toNat / 256 % 256 ∧
    (operandCfg s).startOff.toNat = (s.a[0]).toNat / 65536 % 256 ∧
    (operandCfg s).bitmapLen.toNat = (s.a[0]).toNat / 16777216 ∧
    (operandCfg s).syncPeriod.toNat = (s.a[1]).toNat % 65536 ∧
    (operandCfg s).syncOff.toNat = (s.a[1]).toNat / 65536 := by
  have h0 := (s.a[0]).isLt
  have h1 := (s.a[1]).isLt
  simp only [operandCfg, cfgOfOperands, State.opA, BitVec.extractLsb'_toNat, Nat.shiftRight_eq_div_pow]
  refine ⟨?_, ?_, ?_, ?_, ?_, ?_⟩ <;> simp <;> omega

/-- The bitmap elements stand in the four bitmap words, 32 to a word (R63, R84). -/
theorem operandCfg_bitmap_getElem? (s : State) {k : Nat} (j : Fin 4) (hk : k < (operandCfg s).bitmapLen.toNat)
    (h : k / 32 = j.val) : (operandCfg s).bitmap[k]? = some ((s.a[j.val + 2]).getLsbD (k % 32)) := by
  have hbitmap : (operandCfg s).bitmap = (List.range (operandCfg s).bitmapLen.toNat).map
      (bitmapOperand (s.a[2]) (s.a[3]) (s.a[4]) (s.a[5])) := rfl
  rw [← bitmapOperand_eq s j h, hbitmap, List.getElem?_map, List.getElem?_range hk, Option.map_some]

theorem cfgLegal_iff (C : Config) (c : PoolCfg) :
    cfgLegal C c = true ↔
      1 ≤ c.nSubch.toNat ∧ c.nSubch.toNat ≤ 20 ∧ 1 ≤ c.width.toNat ∧ c.width.toNat ≤ 100 ∧
      1 ≤ c.bitmapLen.toNat ∧ c.bitmapLen.toNat ≤ 100 ∧
      ((c.syncPeriod.toNat = 0 ∧ c.syncOff.toNat = 0) ∨ c.syncOff.toNat < c.syncPeriod.toNat) ∧
      c.startOff.toNat + c.nSubch.toNat * c.width.toNat ≤ C.nprbCarrier := by
  have hzero (x : BitVec 16) : (x == 0) = true ↔ x.toNat = 0 := by rw [beq_iff_eq, BitVec.toNat_eq]; rfl
  simp only [cfgLegal, Bool.and_eq_true, Bool.or_eq_true, decide_eq_true_eq, hzero, and_assoc]
  rfl

/-- Settles O47: the configuration is the one the operands spell, and CONFIGURE's test is the conjunction of its
ranges. -/
theorem configureReplacesWhole : Obligations.ConfigureReplacesWhole := by
  intro s
  obtain ⟨hn, hw, hso, hbl, hsp, hsf⟩ := operandCfg_fields s
  refine ⟨operandCfg s, hn, hw, hso, hbl, hsp, hsf, operandCfg_bitmap_length s,
    fun k j => operandCfg_bitmap_getElem? s j, ?_⟩
  simp only [exec_eq_operate, operate, opConfigure, cfgLegal_iff]
  rfl

end Sys2Proof.Machine

namespace Sys2Proof.Machine

/-! ### The outcomes of WORK by its tick (R255) -/

theorem tickRefused_of_le {s : State} {tick l : Word} (hl : s.lastTick = some l) (h : tick.toNat ≤ l.toNat) :
    tickRefused s tick = true := by
  rw [tickRefused, hl]
  exact decide_eq_true h

theorem not_tickRefused_of_later {s : State} {tick : Word} (h : ∀ l, s.lastTick = some l → l.toNat < tick.toNat) :
    ¬ tickRefused s tick = true := by
  unfold tickRefused
  split
  next l hl => simpa using h l hl
  next => exact Bool.false_ne_true

/-- The operand tick is above the last worked one, and a configured block sees the slot index `k?` for it. -/
structure NewTick (s : State) (k? : Option Nat) : Prop where
  configured : s.cfgValid = true
  later : ∀ l, s.lastTick = some l → l.toNat < (s.a[0]).toNat
  ordinal : slotIndex s.cfg (s.a[0]).toNat = k?

section
variable {C : Config} {s : State} {txReq txRti : Bool}

theorem opWork_of_refused (hv : s.cfgValid = true) (h : tickRefused s (s.a[0]) = true) :
    opWork C txReq txRti s = s.finish .badOperand := by
  rw [opWork, State.whenConfigured_of_valid hv]
  exact if_pos h

theorem NewTick.opWork_outsidePool (h : NewTick s none) :
    opWork C txReq txRti s = ({ s with lastTick := some (s.a[0]) }.setR 0 noOrdinal).finish .notInPool := by
  rw [opWork, State.whenConfigured_of_valid h.configured]
  refine (if_neg (not_tickRefused_of_later h.later)).trans ?_
  rw [show slotIndex s.cfg (s.opA 0).toNat = none from h.ordinal]
  rfl

/-- The state that the receive stage leaves to the transmit stage (R254). -/
def State.received (s : State) (C : Config) (k : Nat) : State :=
  receiveStage C (BitVec.ofNat 32 k) (s.workStarted (s.a[0]) (BitVec.ofNat 32 k))

/-- The state that both stages leave (R254). -/
def State.worked (s : State) (C : Config) (k : Nat) (txReq txRti : Bool) : State :=
  transmitStage C (s.a[0]) (BitVec.ofNat 32 k) txReq txRti (s.received C k)

theorem NewTick.opWork_inPool {k : Nat} (h : NewTick s (some k)) :
    opWork C txReq txRti s = (s.worked C k txReq txRti).finish .ok := by
  rw [opWork, State.whenConfigured_of_valid h.configured]
  refine (if_neg (not_tickRefused_of_later h.later)).trans ?_
  rw [show slotIndex s.cfg (s.opA 0).toNat = some k from h.ordinal]
  rfl

end

/-- Settles O48: an old tick stops WORK before it writes anything, and one outside the pool before either stage. -/
theorem workRefusesOldTicksAndSkipsOthers : Obligations.WorkRefusesOldTicksAndSkipsOthers := by
  refine fun s txReq txRti hv => ⟨fun l hl hle => ?_, fun hlater hslot => ?_⟩
  · rw [exec_eq_operate, operate, opWork_of_refused hv (tickRefused_of_le hl hle)]
    rfl
  · rw [exec_eq_operate, operate, NewTick.opWork_outsidePool ⟨hv, hlater, hslot⟩]
    rfl

/-! ### The receive stage, by what the scan finds (R255) -/

/-- The grant handling of a hit (R255, R256, R257). -/
def hitGrant (C : Config) (slot : Word) (h : Hit) (s : State) : GrantOut :=
  newGrant C (rxPid C slot h.msg.rti h.msg.gap) 0 (rxGrant h.msg h.tbs slot) s

/-- The combination for a hit whose grant was accepted as `g` (R255). -/
def hitCombine (C : Config) (slot : Word) (h : Hit) (g : GrantOut) : CombineOut :=
  combine C h.idx h.msg h.sid slot h.ce g.handle g.state

section
variable {C : Config} {slot : Word} {h : Hit} {s : State}

theorem receiveStage_of_none (hnone : (scan C slot s).hit = none) :
    receiveStage C slot s = (scan C slot s).state.setR 1 (rxWord noMessage) := by
  simp only [receiveStage, hnone]

theorem receiveStage_of_hit (hhit : (scan C slot s).hit = some h) :
    receiveStage C slot s =
      (receiveHit C slot h (((scan C slot s).state.setR 3 (msgWord h.msg)).setR 5 h.sid)).state.setR 1
        (rxWord (receiveHit C slot h (((scan C slot s).state.setR 3 (msgWord h.msg)).setR 5 h.sid)).summary) := by
  simp only [receiveStage, hhit]

theorem receiveHit_of_refused (hg : (hitGrant C slot h s).act.decodeEnabled = false) :
    receiveHit C slot h s =
      { summary := { status := (hitGrant C slot h s).status, pid := rxPid C slot h.msg.rti h.msg.gap, gen := .none,
                     prevOk := false, hit := true, idx := h.idx }
        state := (hitGrant C slot h s).state } :=
  if_neg (Bool.eq_false_iff.mp hg)

/-- The decode of an accepted grant is awaited until the combination has ended (R195, R200). -/
theorem hitCombine_awaited (hg : (hitGrant C slot h s).act.decodeEnabled = true) :
    ((hitCombine C slot h (hitGrant C slot h s)).state.sub (rxPid C slot h.msg.rti h.msg.gap) 0).state =
      .awaitingDecode := by
  rw [hitCombine, State.sub_congr (combine_procs ..)]
  exact (newGrant_accepted C (rxPid_lt ..) two_pos _ s hg).2

theorem receiveHit_of_accepted (hg : (hitGrant C slot h s).act.decodeEnabled = true) {x : CombineOut}
    (hx : hitCombine C slot h (hitGrant C slot h s) = x) :
    receiveHit C slot h s =
      { summary := { status := if x.success then .ok else .dataFail, pid := rxPid C slot h.msg.rti h.msg.gap,
                     gen := x.gen, prevOk := x.prevOk, hit := true, idx := h.idx }
        state := (tbDecoded (rxPid C slot h.msg.rti h.msg.gap) 0 x.success x.state).state } := by
  have hawaited := hitCombine_awaited hg
  rw [hx] at hawaited
  rw [← tbDecoded_status hawaited, ← hx]
  exact if_pos hg

/-- The receive stage leaves the result registers to its caller (R255). -/
theorem receiveHit_r (C : Config) (slot : Word) (h : Hit) (s : State) : (receiveHit C slot h s).state.r = s.r := by
  have hgrant : (hitGrant C slot h s).state.r = s.r := by rw [hitGrant, newGrant_frame]
  cases hg : (hitGrant C slot h s).act.decodeEnabled with
  | false => rw [receiveHit_of_refused hg, hgrant]
  | true => rw [receiveHit_of_accepted hg rfl, tbDecoded_frame, hitCombine, combine_frame, hgrant]

theorem receiveHit_sub_other {p tb : Nat} (hne : (rxPid C slot h.msg.rti h.msg.gap, 0) ≠ (p, tb)) :
    (receiveHit C slot h s).state.sub p tb = s.sub p tb := by
  have hgrant : (hitGrant C slot h s).state.sub p tb = s.sub p tb := newGrant_sub_other C hne _ s
  cases hg : (hitGrant C slot h s).act.decodeEnabled with
  | false => rw [receiveHit_of_refused hg, hgrant]
  | true =>
    rw [receiveHit_of_accepted hg rfl, tbDecoded_sub_other hne, hitCombine, State.sub_congr (combine_procs ..), hgrant]

theorem receiveHit_pair_other {c : Nat} (hne : h.idx ≠ c) : (receiveHit C slot h s).state.pair c = s.pair c := by
  have hgrant : (hitGrant C slot h s).state.pair c = s.pair c := by rw [hitGrant, newGrant_frame]; rfl
  cases hg : (hitGrant C slot h s).act.decodeEnabled with
  | false => rw [receiveHit_of_refused hg, hgrant]
  | true =>
    rw [receiveHit_of_accepted hg rfl, State.pair, tbDecoded_pairs, ← State.pair, hitCombine,
      combine_pair_other C hne, hgrant]

/-- The summary does not depend on the result registers and the last tick. -/
theorem receiveHit_withRecord_summary (r : Vector Word 8) (l : Option Word) :
    (receiveHit C slot h (s.withRecord r l)).summary = (receiveHit C slot h s).summary := by
  have hgrant : hitGrant C slot h (s.withRecord r l) =
      { hitGrant C slot h s with state := (hitGrant C slot h s).state.withRecord r l } := newGrant_withRecord ..
  cases hg : (hitGrant C slot h s).act.decodeEnabled with
  | false => rw [receiveHit_of_refused hg, receiveHit_of_refused (by rw [hgrant, hg]), hgrant]
  | true =>
    rw [receiveHit_of_accepted hg rfl, receiveHit_of_accepted (by rw [hgrant, hg]) rfl, hgrant, hitCombine,
      combine_withRecord]
    rfl

end

/-! ### What the receive stage of a WORK leaves (R255) -/

/-- What the receive stage of a WORK that starts in `s` leaves when the scan finds the message of `h` (R255). -/
structure ReceivedMessage (C : Config) (slot : Word) (h : Hit) (s u : State) : Prop where
  r_eq : u.r = (((s.r.set 0 slot).set 3 (msgWord h.msg)).set 5 h.sid).set 1
    (rxWord (receiveHit C slot h (scan C slot s).state).summary)
  sub_other : ∀ p tb, (p, tb) ≠ (rxPid C slot h.msg.rti h.msg.gap, 0) → u.sub p tb = s.sub p tb
  pair_other : ∀ c, c ≠ h.idx → u.pair c = s.pair c

section
variable {C : Config} {s : State} {k : Nat}

/-- The recorded tick and the written ordinal play no part in the scan. -/
theorem scan_workStarted (C : Config) (tick slot : Word) (s : State) :
    scan C slot (s.workStarted tick slot) =
      { hit := (scan C slot s).hit, state := (scan C slot s).state.withRecord (s.r.set 0 slot) (some tick) } :=
  scan_withRecord C slot s (s.r.set 0 slot) (some tick)

theorem received_of_none (hnone : (scan C (BitVec.ofNat 32 k) s).hit = none) :
    (s.received C k).r = (s.r.set 0 (BitVec.ofNat 32 k)).set 1 0x02 ∧ (s.received C k).procs = s.procs ∧
      (s.received C k).pairs = s.pairs := by
  have hscan := scan_workStarted C (s.a[0]) (BitVec.ofNat 32 k) s
  rw [State.received, receiveStage_of_none (by rw [hscan, hnone]), hscan, scan_frame]
  exact ⟨rfl, rfl, rfl⟩

theorem received_of_hit {h : Hit} (hhit : (scan C (BitVec.ofNat 32 k) s).hit = some h) :
    ReceivedMessage C (BitVec.ofNat 32 k) h s (s.received C k) := by
  have hscan := scan_workStarted C (s.a[0]) (BitVec.ofNat 32 k) s
  have hstart (u : State) (r : Vector Word 8) (l : Option Word) :
      ((u.withRecord r l).setR 3 (msgWord h.msg)).setR 5 h.sid =
        u.withRecord ((r.set 3 (msgWord h.msg)).set 5 h.sid) l := rfl
  rw [State.received, receiveStage_of_hit (by rw [hscan, hhit]), hscan, hstart, receiveHit_withRecord_summary]
  refine ⟨?_, fun p tb hne => ?_, fun c hne => ?_⟩
  · rw [State.setR_r, receiveHit_r]
    rfl
  · rw [State.setR_sub, receiveHit_sub_other hne.symm, scan_frame]
    rfl
  · rw [State.setR_pair, receiveHit_pair_other hne.symm, scan_frame]
    rfl

/-- The ordinal stands in `R0`, and the registers of the transmit stage are untouched (R255). -/
theorem received_r_kept (C : Config) (s : State) (k : Nat) :
    (s.received C k).r[0] = BitVec.ofNat 32 k ∧ (s.received C k).r[4] = s.r[4] ∧ (s.received C k).r[6] = s.r[6] ∧
      (s.received C k).r[7] = s.r[7] := by
  rcases hhit : (scan C (BitVec.ofNat 32 k) s).hit with _ | h
  · obtain ⟨hr, -, -⟩ := received_of_none hhit
    simp [hr]
  · simp [(received_of_hit hhit).r_eq]

theorem received_frame (C : Config) (s : State) (k : Nat) :
    s.received C k = { s with
      lastTick := some (s.a[0]), csState := .idle, csIdx := 0
      r := (s.received C k).r, pairs := (s.received C k).pairs, procs := (s.received C k).procs
      retxSum := (s.received C k).retxSum, pktCnt := (s.received C k).pktCnt, counters := (s.received C k).counters
      asks := (s.received C k).asks, history := (s.received C k).history } :=
  receiveStage_frame C _ (s.workStarted (s.a[0]) (BitVec.ofNat 32 k))

theorem received_txTicks (C : Config) (s : State) (k : Nat) :
    txTicks (s.received C k).history = txTicks s.history := receiveStage_txTicks C _ (s.workStarted ..)

end

/-! ### The transmit stage, by what the scheduler builds (R255, R258) -/

section
variable {C : Config} {tick slot bits : Word} {rti : Bool} {s : State} {m : SciMsg}

/-- What the scheduler answers: no message and another status than `OK`, with nothing remembered; or a message with the
remembered allocation or a newly built one, with a draw for the latter only (R232, R233). -/
theorem buildGrant_msg_cases (C : Config) (slot bits : Word) (rti : Bool) (s : State) :
    ((buildGrant C slot bits rti s).msg = none ∧ (buildGrant C slot bits rti s).status ≠ .ok ∧
      (buildGrant C slot bits rti s).state.txLast = s.txLast) ∨
    ∃ m, (buildGrant C slot bits rti s).msg = some m ∧ (buildGrant C slot bits rti s).status = .ok ∧
      ((rti = true ∧ ∃ last, s.txLast = some last ∧ m = { last with rti := true }) ∨
       (Built C s.cfg m ∧ (buildGrant C slot bits rti s).state.asks = s.asks + 1)) := by
  by_cases hslot : slot.toNat % C.nodeCount = C.nodeId
  · rw [buildGrant_of_eligible hslot]
    cases rti with
    | true =>
      rw [if_pos rfl]
      rcases hlast : s.txLast with _ | m
      · rw [buildSecond_of_none hlast]
        exact .inl ⟨rfl, nofun, hlast⟩
      · rw [buildSecond_of_some hlast]
        exact .inr ⟨_, rfl, rfl, .inl ⟨rfl, m, rfl, rfl⟩⟩
    | false =>
      rw [if_neg Bool.false_ne_true]
      rcases hsearch : findCandidate C s.cfg bits with _ | x
      · rw [buildFirst_of_none hsearch]
        exact .inl ⟨rfl, nofun, rfl⟩
      · obtain ⟨start, hstart, hbuild⟩ := buildFirst_of_candidate (s := s) hsearch
        rw [hbuild]
        exact .inr ⟨_, rfl, rfl, .inr ⟨⟨bits, x, start, hsearch, hstart, rfl⟩, rfl⟩⟩
  · rw [buildGrant_of_not_eligible hslot]
    exact .inl ⟨rfl, nofun, rfl⟩

theorem buildGrant_of_msg_none (hnone : (buildGrant C slot bits rti s).msg = none) :
    (buildGrant C slot bits rti s).status ≠ .ok ∧ (buildGrant C slot bits rti s).state.txLast = s.txLast := by
  rcases buildGrant_msg_cases C slot bits rti s with ⟨-, hanswer⟩ | ⟨_, hsome, -⟩
  · exact hanswer
  · simp [hnone] at hsome

theorem buildGrant_of_msg_some (hsome : (buildGrant C slot bits rti s).msg = some m) :
    (buildGrant C slot bits rti s).status = .ok ∧
      ((rti = true ∧ ∃ last, s.txLast = some last ∧ m = { last with rti := true }) ∨
       (Built C s.cfg m ∧ (buildGrant C slot bits rti s).state.asks = s.asks + 1)) := by
  rcases buildGrant_msg_cases C slot bits rti s with ⟨hnone, -⟩ | ⟨_, hmsg, hanswer⟩
  · simp [hsome] at hnone
  · rw [hsome] at hmsg
    cases hmsg
    exact hanswer

theorem transmitStage_of_none (hbits : s.a[1] = bits) (hnone : (buildGrant C slot bits rti s).msg = none) :
    transmitStage C tick slot true rti s =
      (buildGrant C slot bits rti s).state.setR 2 (txWord (buildGrant C slot bits rti s).status false) := by
  subst hbits
  rw [transmitStage, if_pos rfl]
  simp only [show s.opA 1 = s.a[1] from rfl, hnone]

/-- The transmit event of the message `m` (R258). -/
def sentEvent (C : Config) (c : PoolCfg) (tick : Word) (m : SciMsg) : Event :=
  .txOut tick (sciPack c.nSubch.toNat m) (crcOfInfo (sciPack c.nSubch.toNat m)) (txRequest C c m)

theorem transmitStage_of_some (hbits : s.a[1] = bits) (hsome : (buildGrant C slot bits rti s).msg = some m) :
    transmitStage C tick slot true rti s =
      (((((buildGrant C slot bits rti s).state.note (sentEvent C s.cfg tick m)).setR 4 (msgWord m)).setR 6
        (sciPack s.cfg.nSubch.toNat m)).setR 7 (crcWord (crcOfInfo (sciPack s.cfg.nSubch.toNat m)))).setR 2
          0x100 := by
  subst hbits
  have hcfg : (buildGrant C slot (s.a[1]) rti s).state.cfg = s.cfg := by rw [buildGrant_frame]
  obtain ⟨hok, -⟩ := buildGrant_of_msg_some hsome
  rw [transmitStage, if_pos rfl]
  simp only [show s.opA 1 = s.a[1] from rfl, hsome, hcfg, hok]
  rfl

/-- The transmit stage leaves the registers of the ordinal and of the receive stage (R255). -/
theorem transmitStage_r_kept (C : Config) (tick slot : Word) (txReq rti : Bool) (s : State) :
    (transmitStage C tick slot txReq rti s).r[0] = s.r[0] ∧ (transmitStage C tick slot txReq rti s).r[1] = s.r[1] ∧
      (transmitStage C tick slot txReq rti s).r[3] = s.r[3] ∧
      (transmitStage C tick slot txReq rti s).r[5] = s.r[5] := by
  cases txReq with
  | false => simp [transmitStage]
  | true =>
    have hr : (buildGrant C slot (s.a[1]) rti s).state.r = s.r := by rw [buildGrant_frame]
    rcases hbuilt : (buildGrant C slot (s.a[1]) rti s).msg with _ | m
    · simp [transmitStage_of_none rfl hbuilt, hr]
    · simp [transmitStage_of_some rfl hbuilt, hr]

/-- A draw is the last question of the transmit stage, so the stage's build can be made again from the number of
questions it leaves (R233). -/
theorem buildGrant_again {u : State} (hbits : u.a[1] = bits) (hcfg : u.cfg = s.cfg) (hlast : u.txLast = s.txLast) :
    (buildGrant C slot bits rti u).status = (buildGrant C slot bits rti
      { s with asks := (transmitStage C tick slot true rti u).asks - 1 }).status ∧
    (buildGrant C slot bits rti u).msg = (buildGrant C slot bits rti
      { s with asks := (transmitStage C tick slot true rti u).asks - 1 }).msg ∧
    (buildGrant C slot bits rti u).state.txLast = (buildGrant C slot bits rti
      { s with asks := (transmitStage C tick slot true rti u).asks - 1 }).state.txLast := by
  refine buildGrant_congr C slot bits rti hcfg hlast ?_
  rintro ⟨m, hsome⟩ rfl
  obtain ⟨-, ⟨hrti, -⟩ | ⟨-, hasks⟩⟩ := buildGrant_of_msg_some hsome
  · cases hrti
  · rw [transmitStage_of_some hbits hsome]
    exact (congrArg (· - 1) hasks).symm

end

/-! ### What a WORK in the pool leaves (R254 to R258) -/

theorem worked_frame (C : Config) (s : State) (k : Nat) (txReq txRti : Bool) :
    s.worked C k txReq txRti = { s with
      lastTick := some (s.a[0]), csState := .idle, csIdx := 0
      r := (s.worked C k txReq txRti).r, pairs := (s.worked C k txReq txRti).pairs
      procs := (s.worked C k txReq txRti).procs, retxSum := (s.worked C k txReq txRti).retxSum
      pktCnt := (s.worked C k txReq txRti).pktCnt, counters := (s.worked C k txReq txRti).counters
      txLast := (s.worked C k txReq txRti).txLast, asks := (s.worked C k txReq txRti).asks
      history := (s.worked C k txReq txRti).history } := by
  have h := transmitStage_frame C (s.a[0]) (BitVec.ofNat 32 k) txReq txRti (s.received C k)
  rw [← State.worked] at h
  rw [h, received_frame]

theorem State.pair_congr {s t : State} (h : t.pairs = s.pairs) (c : Nat) : t.pair c = s.pair c := by
  rw [State.pair, h, State.pair]

theorem worked_procs (C : Config) (s : State) (k : Nat) (txReq txRti : Bool) :
    (s.worked C k txReq txRti).procs = (s.received C k).procs := by
  rw [State.worked, transmitStage_frame]

theorem worked_pairs (C : Config) (s : State) (k : Nat) (txReq txRti : Bool) :
    (s.worked C k txReq txRti).pairs = (s.received C k).pairs := transmitStage_pairs ..

/-- `t` is the end of a WORK that starts in `s` and sends nothing; its transmit summary is `summary` (R255). -/
def NothingSent (s t : State) (summary : Word) : Prop :=
  t.r[2] = summary ∧ t.r[4] = s.r[4] ∧ t.r[6] = s.r[6] ∧ t.r[7] = s.r[7] ∧ t.txLast = s.txLast ∧
    txTicks t.history = txTicks s.history

/-- Nothing is sent when the transmit stage writes its summary alone of the result registers, and remembers and
transmits nothing. -/
theorem nothingSent_setR {C : Config} {s u : State} {k : Nat} (summary : Word) (hr : u.r = (s.received C k).r)
    (hlast : u.txLast = (s.received C k).txLast) (hticks : txTicks u.history = txTicks (s.received C k).history) :
    NothingSent s (u.setR 2 summary) summary := by
  obtain ⟨-, h4, h6, h7⟩ := received_r_kept C s k
  exact ⟨by simp, by simp [hr, h4], by simp [hr, h6], by simp [hr, h7], hlast.trans (receiveStage_txLast ..),
    hticks.trans (received_txTicks ..)⟩

theorem worked_unrequested (C : Config) (s : State) (k : Nat) (txRti : Bool) :
    NothingSent s (s.worked C k false txRti) 0 := nothingSent_setR (u := s.received C k) 0 rfl rfl rfl

section
variable {C : Config} {s : State} {k : Nat} {txRti : Bool} {b : BuildOut}
  (hb : b = buildGrant C (BitVec.ofNat 32 k) (s.a[1]) txRti { s with asks := (s.worked C k true txRti).asks - 1 })
include hb

/-- The build of a WORK's transmit stage is the one that its number of questions names. -/
theorem worked_build :
    (buildGrant C (BitVec.ofNat 32 k) (s.a[1]) txRti (s.received C k)).status = b.status ∧
    (buildGrant C (BitVec.ofNat 32 k) (s.a[1]) txRti (s.received C k)).msg = b.msg ∧
    (buildGrant C (BitVec.ofNat 32 k) (s.a[1]) txRti (s.received C k)).state.txLast = b.state.txLast := by
  rw [hb]
  exact buildGrant_again (by rw [received_frame]) (receiveStage_cfg ..) (receiveStage_txLast ..)

/-- What WORK leaves when the scheduler turns its request away (R255). -/
theorem worked_of_none (hnone : b.msg = none) :
    NothingSent s (s.worked C k true txRti) (txWord b.status false) := by
  obtain ⟨hstatus, hmsg, -⟩ := worked_build hb
  have ha : (s.received C k).a[1] = s.a[1] := by rw [received_frame]
  obtain ⟨-, hlast⟩ := buildGrant_of_msg_none (hmsg.trans hnone)
  rw [State.worked, transmitStage_of_none ha (hmsg.trans hnone), hstatus]
  exact nothingSent_setR _ (by rw [buildGrant_frame]) hlast (buildGrant_extends ..).txTicks

/-- What WORK leaves when the scheduler builds a grant: it goes out as the last event (R255, R258). -/
theorem worked_of_some {m : SciMsg} (hsome : b.msg = some m) :
    let t := s.worked C k true txRti
    let info := sciPack s.cfg.nSubch.toNat m
    t.r[2] = 0x100 ∧ t.r[4] = msgWord m ∧ t.r[6] = info ∧ t.r[7] = (crcOfInfo info).setWidth 32 ∧
      t.txLast = b.state.txLast ∧
      ∃ before, t.history = before ++ [sentEvent C s.cfg (s.a[0]) m] ∧ txTicks before = txTicks s.history := by
  intro t info
  obtain ⟨-, hmsg, hlast⟩ := worked_build hb
  have ha : (s.received C k).a[1] = s.a[1] := by rw [received_frame]
  have hcfg : (s.received C k).cfg = s.cfg := receiveStage_cfg ..
  have ht : t = _ := transmitStage_of_some ha (hmsg.trans hsome)
  rw [ht, hcfg, ← crcWord_eq_setWidth]
  exact ⟨by simp, by simp, by simp [info], by simp [info], hlast,
    _, rfl, (buildGrant_extends ..).txTicks.trans (received_txTicks ..)⟩

end

section
variable {C : Config} {s : State} {k : Nat} {txRti : Bool}

/-- What WORK leaves when its scan finds nothing (R255). -/
theorem worked_nothing (hnone : (scan C (BitVec.ofNat 32 k) s).hit = none) (txReq : Bool) :
    let t := s.worked C k txReq txRti
    t.r[1] = 0x02 ∧ t.r[3] = s.r[3] ∧ t.r[5] = s.r[5] ∧ t.procs = s.procs ∧ t.pairs = s.pairs := by
  intro t
  obtain ⟨-, h1, h3, h5⟩ := transmitStage_r_kept C (s.a[0]) (BitVec.ofNat 32 k) txReq txRti (s.received C k)
  obtain ⟨hr, hprocs, hpairs⟩ := received_of_none hnone
  exact ⟨h1.trans (by simp [hr]), h3.trans (by simp [hr]), h5.trans (by simp [hr]),
    (worked_procs ..).trans hprocs, (worked_pairs ..).trans hpairs⟩

/-- What WORK leaves of the message that its scan finds (R255, R256). -/
theorem worked_message {h : Hit} (hhit : (scan C (BitVec.ofNat 32 k) s).hit = some h) (txReq : Bool) :
    let t := s.worked C k txReq txRti
    t.r[1] = rxWord (receiveHit C (BitVec.ofNat 32 k) h (scan C (BitVec.ofNat 32 k) s).state).summary ∧
      t.r[3] = msgWord h.msg ∧ t.r[5] = h.sid ∧
      (∀ p tb, (p, tb) ≠ (rxPid C (BitVec.ofNat 32 k) h.msg.rti h.msg.gap, 0) → t.sub p tb = s.sub p tb) ∧
      ∀ c, c ≠ h.idx → t.pair c = s.pair c := by
  intro t
  obtain ⟨-, h1, h3, h5⟩ := transmitStage_r_kept C (s.a[0]) (BitVec.ofNat 32 k) txReq txRti (s.received C k)
  obtain ⟨hr, hsub, hpair⟩ := received_of_hit hhit
  exact ⟨h1.trans (by simp [hr]), h3.trans (by simp [hr]), h5.trans (by simp [hr]),
    fun p tb hne => (State.sub_congr (worked_procs ..) p tb).trans (hsub p tb hne),
    fun c hne => (State.pair_congr (worked_pairs ..) c).trans (hpair c hne)⟩

end

/-- Settles O49: both stages one after the other, the receive stage by what its scan finds and the transmit stage by
what the scheduler builds. -/
theorem workCompletesTick : Obligations.WorkCompletesTick := by
  intro s txReq txRti slot ord found hv hlater hslot hord hfound
  subst hord hfound
  have hnew : NewTick s (some slot) := ⟨hv, hlater, hslot⟩
  obtain ⟨h0, -⟩ :=
    transmitStage_r_kept Config.hw (s.a[0]) (BitVec.ofNat 32 slot) txReq txRti (s.received Config.hw slot)
  obtain ⟨hord, -⟩ := received_r_kept Config.hw s slot
  refine ⟨(s.worked Config.hw slot txReq txRti).finish .ok, ?_, ?_, h0.trans hord, ?_, ?_, ?_, ?_⟩
  · rw [exec_eq_operate, operate, hnew.opWork_inPool]
  · exact congrArg (State.finish · .ok) (worked_frame Config.hw s slot txReq txRti)
  · exact fun hnone => worked_nothing hnone txReq
  · rintro h pid hhit rfl
    obtain ⟨h1, h3, h5, hsub, hpair⟩ := worked_message (txRti := txRti) hhit txReq
    refine ⟨h3, h5, Nat.mod_lt _ (Nat.succ_pos _), hsub, hpair, ?_⟩
    rintro g rfl
    refine ⟨fun hrefused => h1.trans ?_, ?_⟩
    · rw [receiveHit_of_refused hrefused]
      rfl
    · rintro haccepted x rfl
      refine h1.trans ?_
      rw [receiveHit_of_accepted haccepted rfl]
      rfl
  · rintro rfl
    exact worked_unrequested Config.hw s slot txRti
  · rintro b rfl hb
    refine ⟨worked_of_none hb, ?_⟩
    rintro m info crc hsome rfl rfl
    exact worked_of_some hb hsome

end Sys2Proof.Machine

namespace Sys2Proof.Machine

/-! ### The units neither read nor write the registers: they commute with erasing them (R259) -/

section
variable (s : State)

@[simp] theorem State.effect_sub (p tb : Nat) : s.effect.sub p tb = s.sub p tb := rfl
@[simp] theorem State.effect_pair (c : Nat) : s.effect.pair c = s.pair c := rfl
@[simp] theorem State.effect_cfg : s.effect.cfg = s.cfg := rfl
@[simp] theorem State.setR_effect (i : Fin 8) (v : Word) : (s.setR i v).effect = s.effect := rfl
@[simp] theorem State.finish_effect (st : Status) : (s.finish st).effect = s.effect := rfl
theorem State.effect_count (k : Counter) : s.effect.count k = (s.count k).effect := rfl
theorem State.effect_setPair (c : Nat) (p : BufferPair) : s.effect.setPair c p = (s.setPair c p).effect := rfl
theorem State.effect_note (e : Event) : s.effect.note e = (s.note e).effect := rfl

theorem State.effect_release (h : Word) : s.effect.release h = (s.release h).effect := by
  unfold State.release
  split <;> rfl

theorem State.effect_writePayload (x : Attempts) (gen : Gen) (h : Word) :
    s.effect.writePayload x gen h = (s.writePayload x gen h).effect := by
  unfold State.writePayload
  split
  · rfl
  · cases gen <;> rfl

end

/-- A grant's outcome in the state without its registers. -/
def GrantOut.effect (out : GrantOut) : GrantOut := { out with state := out.state.effect }

/-- A combination's outcome in the state without its registers. -/
def CombineOut.effect (out : CombineOut) : CombineOut := { out with state := out.state.effect }

/-- A build's outcome in the state without its registers. -/
def BuildOut.effect (out : BuildOut) : BuildOut := { out with state := out.state.effect }

section
variable (C : Config) (slot : Word) (s : State)

theorem scanFrom_effect (n i : Nat) :
    scanFrom C slot n i s.effect =
      { hit := (scanFrom C slot n i s).hit, state := (scanFrom C slot n i s).state.effect } := by
  induction n generalizing i s with
  | zero => rfl
  | succ n ih =>
    have hreject : s.effect.reject C slot i = (s.reject C slot i).effect := rfl
    rw [scanFrom_succ, scanFrom_succ, show examined C slot i s.effect = examined C slot i s from rfl, hreject, ih]
    split <;> rfl

theorem scan_effect :
    scan C slot s.effect = { hit := (scan C slot s).hit, state := (scan C slot s).state.effect } := by
  rw [scan, State.effect_cfg, scanFrom_effect]
  rfl

/-- A scan finds the same in two states that differ in the registers only. -/
theorem scan_congr_effect {s u : State} (h : u.effect = s.effect) :
    (scan C slot u).hit = (scan C slot s).hit ∧ (scan C slot u).state.effect = (scan C slot s).state.effect := by
  have hscan := scan_effect C slot u
  rw [h, scan_effect] at hscan
  exact ScanOut.mk.inj hscan.symm

theorem duplicateGrant_effect (p tb : Nat) :
    duplicateGrant C p tb s.effect = (duplicateGrant C p tb s).effect := by
  by_cases h : C.dupLimit < ((s.sub p tb).dupCnt + 1).toNat
  · rw [duplicateGrant_past h, duplicateGrant_past (s := s.effect) h, State.effect_sub, State.effect_count,
      State.effect_release]
    rfl
  · rw [duplicateGrant_within h, duplicateGrant_within (s := s.effect) h]
    rfl

theorem allocateGrant_effect (p tb : Nat) (sp : SubProc) (b : Bool) :
    allocateGrant C p tb sp b s.effect = (allocateGrant C p tb sp b s).effect := by
  by_cases hpay : sp.payload = 0
  · by_cases hanswer : C.alloc s.asks (bytesOf sp.tbs) = 0
    · rw [allocateGrant_none hpay hanswer, allocateGrant_none (s := s.effect) hpay hanswer]
      rfl
    · rw [allocateGrant_asked hpay hanswer, allocateGrant_asked (s := s.effect) hpay hanswer]
      rfl
  · rw [allocateGrant_held C p tb b s hpay, allocateGrant_held C p tb b _ hpay]
    rfl

theorem State.prepared_effect (sp : SubProc) (g : Grant) : s.effect.prepared sp g = (s.prepared sp g).effect := by
  unfold State.prepared
  rw [State.effect_release]
  cases isDiscont sp g <;> cases grantResets sp g <;> rfl

theorem newGrant_effect (p tb : Nat) (g : Grant) : newGrant C p tb g s.effect = (newGrant C p tb g s).effect := by
  by_cases h : Repeats (s.sub p tb) g
  · rw [newGrant_of_repeats C h, newGrant_of_repeats C (s := s.effect) h, duplicateGrant_effect]
  · rw [newGrant_of_not_repeats C h, newGrant_of_not_repeats C (s := s.effect) h, State.effect_sub,
      State.prepared_effect, allocateGrant_effect]

theorem combine_effect (c : Nat) (m : SciMsg) (sid ce handle : Word) :
    combine C c m sid slot ce handle s.effect = (combine C c m sid slot ce handle s).effect := by
  have hq : askDataRx C s.effect slot m sid ce =
      ((askDataRx C s slot m sid ce).1, (askDataRx C s slot m sid ce).2.effect) := rfl
  simp only [combine, hq, State.effect_pair, State.noteFec, State.effect_note, State.effect_setPair,
    State.effect_writePayload]
  rfl

theorem tbDecoded_effect (p tb : Nat) (ack : Bool) :
    (tbDecoded p tb ack s.effect).state = (tbDecoded p tb ack s).state.effect := by
  unfold tbDecoded
  cases ack <;> by_cases h : (s.sub p tb).state = .awaitingDecode <;> simp [h] <;> rfl

theorem buildGrant_effect (bits : Word) (rti : Bool) :
    buildGrant C slot bits rti s.effect = (buildGrant C slot bits rti s).effect := by
  by_cases h : slot.toNat % C.nodeCount = C.nodeId
  · rw [buildGrant_of_eligible h, buildGrant_of_eligible h]
    cases rti with
    | true =>
      rcases hlast : s.txLast with _ | m
      · simp only [buildSecond_of_none hlast, buildSecond_of_none (s := s.effect) hlast, if_true]
        rfl
      · simp only [buildSecond_of_some hlast, buildSecond_of_some (s := s.effect) hlast, if_true]
        rfl
    | false =>
      rcases hsearch : findCandidate C s.cfg bits with _ | x
      · simp only [buildFirst_of_none hsearch, buildFirst_of_none (s := s.effect) hsearch, Bool.false_eq_true, if_false]
        rfl
      · simp only [buildFirst, State.effect_cfg, hsearch, Bool.false_eq_true, if_false]
        rfl
  · rw [buildGrant_of_not_eligible h, buildGrant_of_not_eligible h]
    rfl

/-- A build answers the same in two states that differ in the registers only. -/
theorem buildGrant_congr_effect {s u : State} (h : u.effect = s.effect) (bits : Word) (rti : Bool) :
    (buildGrant C slot bits rti u).status = (buildGrant C slot bits rti s).status ∧
    (buildGrant C slot bits rti u).msg = (buildGrant C slot bits rti s).msg ∧
    (buildGrant C slot bits rti u).state.effect = (buildGrant C slot bits rti s).state.effect := by
  have hbuild := buildGrant_effect C slot u bits rti
  rw [h, buildGrant_effect] at hbuild
  exact BuildOut.mk.inj hbuild.symm

end

theorem hitGrant_effect (C : Config) (slot : Word) (h : Hit) (s : State) :
    hitGrant C slot h s.effect = (hitGrant C slot h s).effect := newGrant_effect ..

theorem hitCombine_effect (C : Config) (slot : Word) (h : Hit) (g : GrantOut) :
    hitCombine C slot h g.effect = (hitCombine C slot h g).effect := combine_effect ..

/-! ### The receive stage without the registers (R255, R259) -/

/-- What the receive stage makes of a hit, without the registers. -/
theorem receiveHit_effect (C : Config) (slot : Word) (h : Hit) (s : State) :
    (receiveHit C slot h s).state.effect = (receiveHit C slot h s.effect).state := by
  have hgrant := hitGrant_effect C slot h s
  cases hg : (hitGrant C slot h s).act.decodeEnabled with
  | false =>
    rw [receiveHit_of_refused hg, receiveHit_of_refused (s := s.effect) (by rw [hgrant]; exact hg), hgrant]
    rfl
  | true =>
    rw [receiveHit_of_accepted hg rfl, receiveHit_of_accepted (s := s.effect) (by rw [hgrant]; exact hg) rfl, hgrant,
      hitCombine_effect]
    exact (tbDecoded_effect ..).symm

section
variable {C : Config} {slot : Word} {h : Hit} {s : State}

theorem receiveStage_effect_of_none (hnone : (scan C slot s).hit = none) :
    (receiveStage C slot s).effect = (scan C slot s).state.effect := by
  rw [receiveStage_of_none hnone, State.setR_effect]

theorem receiveStage_effect_of_hit (hhit : (scan C slot s).hit = some h) :
    (receiveStage C slot s).effect = (receiveHit C slot h (scan C slot s).state.effect).state := by
  rw [receiveStage_of_hit hhit, State.setR_effect, receiveHit_effect, State.setR_effect, State.setR_effect]

end

theorem operate_config (C : Config) {i : Instr} (hi : i ≠ .configure) (s : State) :
    (operate C i s).cfg = s.cfg ∧ (operate C i s).cfgValid = s.cfgValid := by
  obtain ⟨u, r, st, heffect, hend⟩ := operate_ends C i s
  rw [hend]
  exact heffect.config_eq hi

/-! ### What the component operations tell the host (R84, R151, R172, R195, R232) -/

theorem Status.word_eq_ok_iff (st : Status) : st.word = Status.ok.word ↔ st = .ok := by
  cases st <;> decide

section
variable {C : Config} {s : State} {h : Hit}

theorem opScan_effect (hv : s.cfgValid = true) : (opScan C s).effect = (scan C (s.a[0]) s).state.effect := by
  rw [opScan, State.whenConfigured_of_valid hv, show s.opA 0 = s.a[0] from rfl]
  dsimp only
  split <;> simp only [State.setR_effect, State.finish_effect]

theorem opScan_status_of_none (hv : s.cfgValid = true) (hnone : (scan C (s.a[0]) s).hit = none) :
    (opScan C s).status = Status.noSci.word := by
  rw [opScan, State.whenConfigured_of_valid hv]
  simp only [show s.opA 0 = s.a[0] from rfl, hnone, State.finish_status]

/-- The operation ended with `OK` and the hit in the result registers that the sequence uses (R151). -/
structure ScanTold (h : Hit) (t : State) : Prop where
  status_eq : t.status = Status.ok.word
  msg_eq : t.r[0] = msgWord h.msg
  sid_eq : t.r[1] = h.sid
  idx_eq : t.r[2] = BitVec.ofNat 32 h.idx
  ce_eq : t.r[3] = h.ce
  tbs_eq : t.r[4] = h.tbs

theorem opScan_told (hv : s.cfgValid = true) (hhit : (scan C (s.a[0]) s).hit = some h) :
    ScanTold h (opScan C s) := by
  rw [opScan, State.whenConfigured_of_valid hv]
  simp only [show s.opA 0 = s.a[0] from rfl, hhit]
  constructor <;> simp

/-- An accepted candidate lies in the pool, and its message has a valid `riv` (R150, R151). -/
theorem scan_hit_valid {slot : Word} (hhit : (scan C slot s).hit = some h) :
    h.idx < s.cfg.nSubch.toNat ∧ (msgAlloc s.cfg h.msg).ok = true := by
  rw [scan_hit_eq] at hhit
  obtain ⟨-, hidx, ans, heq, -, hconsistent⟩ := scanFrom_hit C slot _ 0 s h hhit
  refine ⟨by omega, ?_⟩
  rw [heq]
  exact (Bool.and_eq_true_iff.mp hconsistent).1

end

/-! ### The operand words of the sequence (R84, R257) -/

theorem gntWord_toNat_lt (gap : BitVec 4) (rti : Bool) : (gntWord gap rti).toNat < 32 := by
  revert gap rti
  decide

theorem grantOfOperands_gntWord (m : SciMsg) (tbs slot : Word) :
    grantOfOperands .sidelink true (!m.rti) tbs slot (gntWord m.gap m.rti) = rxGrant m tbs slot := by
  have hparts : ∀ (gap : BitVec 4) (rti : Bool),
      gntGap (gntWord gap rti) = gap ∧ gntRti (gntWord gap rti) = rti := by decide
  obtain ⟨hgap, hrti⟩ := hparts m.gap m.rti
  rw [grantOfOperands, hgap, hrti, rxGrant]

theorem actWord_decodeEnabled (act : Action) : (actWord act).getLsbD 0 = act.decodeEnabled := by
  obtain ⟨decodeEnabled, defaultAck, sbReset⟩ := act
  revert decodeEnabled defaultAck sbReset
  decide

theorem outWord_success (success : Bool) (gen : Gen) (prevOk : Bool) :
    (outWord success gen prevOk).getLsbD 0 = success := by
  cases gen <;> revert success prevOk <;> decide

theorem rxPid_toNat (C : Config) (slot : Word) (rti : Bool) (gap : BitVec 4) :
    (BitVec.ofNat 8 (rxPid C slot rti gap)).toNat = rxPid C slot rti gap :=
  Nat.mod_eq_of_lt ((rxPid_lt ..).trans (by decide))

section
variable (s : State) (a0 a1 a2 a3 a4 : Word)

theorem State.loadA_effect : (s.loadA a0 a1 a2 a3 a4).effect = s.effect := rfl
theorem State.loadA_cfg : (s.loadA a0 a1 a2 a3 a4).cfg = s.cfg := rfl
theorem State.loadA_cfgValid : (s.loadA a0 a1 a2 a3 a4).cfgValid = s.cfgValid := rfl
theorem State.loadA_a0 : (s.loadA a0 a1 a2 a3 a4).a[0] = a0 := by simp [State.loadA]
theorem State.loadA_a1 : (s.loadA a0 a1 a2 a3 a4).a[1] = a1 := by simp [State.loadA]
theorem State.loadA_a2 : (s.loadA a0 a1 a2 a3 a4).a[2] = a2 := by simp [State.loadA]
theorem State.loadA_a3 : (s.loadA a0 a1 a2 a3 a4).a[3] = a3 := by simp [State.loadA]
theorem State.loadA_a4 : (s.loadA a0 a1 a2 a3 a4).a[4] = a4 := by simp [State.loadA]

end

/-! ### The receive part of the sequence (R259) -/

/-- The operation ended with the answers of the grant `g` (R195). -/
structure GrantTold (g : GrantOut) (t : State) : Prop where
  effect_eq : t.effect = g.state
  act_eq : t.r[0] = actWord g.act
  handle_eq : g.status = .ok → t.r[1] = g.handle

theorem GrantOut.results_told (g : GrantOut) : GrantTold g.effect g.results := by
  obtain ⟨st, act, w, u⟩ := g
  by_cases hok : st = .ok
  · subst hok
    rw [GrantOut.results_of_ok]
    exact ⟨rfl, by simp [State.answer, GrantOut.effect], fun _ => by simp [State.answer, GrantOut.effect]⟩
  · rw [GrantOut.results_of_ne_ok hok]
    exact ⟨rfl, by simp [State.answer, GrantOut.effect], fun h => absurd h hok⟩

/-- The operation ended with the answers of the combination `x` (R172). -/
structure CombineTold (x : CombineOut) (t : State) : Prop where
  effect_eq : t.effect = x.state
  out_eq : t.r[0] = outWord x.success x.gen x.prevOk

theorem opCombine_told (C : Config) {ctx : Byte} {s : State} (hv : s.cfgValid = true)
    (hok : combineOperandsOk ctx s = true) :
    CombineTold (combine C ctx.toNat (msgOfWord (s.a[0])) (s.a[1]) (s.a[2]) (s.a[3]) (s.a[4]) s).effect
      (opCombine C ctx s) := by
  rw [opCombine, State.whenConfigured_of_valid hv, if_pos hok]
  constructor <;> simp [CombineOut.effect, State.opA]

section
variable {C : Config} {slot : Word} {h : Hit} {s u : State}

/-- NEWGRANT with the operands of rules R256 and R257 handles the grant of the hit. -/
theorem opNewgrant_told (hv : u.cfgValid = true) :
    GrantTold (hitGrant C slot h u.effect)
      (opNewgrant C (BitVec.ofNat 8 (rxPid C slot h.msg.rti h.msg.gap)) 0 .sidelink true (!h.msg.rti)
        (u.loadA h.tbs slot (gntWord h.msg.gap h.msg.rti) 0 0)) := by
  have hpid : rxPid C slot h.msg.rti h.msg.gap ≤ C.nProc := (Nat.mod_lt _ (Nat.succ_pos _)).le
  have hready : ReadyFor C (u.loadA h.tbs slot (gntWord h.msg.gap h.msg.rti) 0 0)
      (BitVec.ofNat 8 (rxPid C slot h.msg.rti h.msg.gap)) 0 := by
    refine ⟨hv, by rwa [rxPid_toNat], Nat.succ_pos _, ?_⟩
    rw [State.loadA_a2]
    exact gntWord_toNat_lt ..
  have htold := (hitGrant C slot h (u.loadA h.tbs slot (gntWord h.msg.gap h.msg.rti) 0 0)).results_told
  rw [← hitGrant_effect, State.loadA_effect, hitGrant] at htold
  rwa [opNewgrant_of_ready _ _ _ hready, rxPid_toNat, State.loadA_a0, State.loadA_a1, State.loadA_a2,
    grantOfOperands_gntWord]

/-- COMBINE with the hit's index as context and its message combines the occasion of the hit. -/
theorem opCombine_hit_told (hv : u.cfgValid = true) (hn : u.cfg.nSubch.toNat ≤ 20)
    (hidx : h.idx < u.cfg.nSubch.toNat) (hriv : (msgAlloc u.cfg h.msg).ok = true) {g : GrantOut}
    (hg : u.effect = g.state) :
    CombineTold (hitCombine C slot h g)
      (opCombine C ((BitVec.ofNat 32 h.idx).setWidth 8) (u.loadA (msgWord h.msg) h.sid slot h.ce g.handle)) := by
  have hctx : ((BitVec.ofNat 32 h.idx).setWidth 8).toNat = h.idx := by
    simp
    omega
  have hok : combineOperandsOk ((BitVec.ofNat 32 h.idx).setWidth 8)
      (u.loadA (msgWord h.msg) h.sid slot h.ce g.handle) = true := by
    rw [combineOperandsOk_iff, hctx, State.loadA_a0, ← msgReservedZero_iff, msgOfWord_msgWord]
    exact ⟨hidx, msgReservedZero_msgWord _, hriv⟩
  have htold := opCombine_told C (s := u.loadA (msgWord h.msg) h.sid slot h.ce g.handle) hv hok
  rwa [← combine_effect, State.loadA_effect, hctx, State.loadA_a0, State.loadA_a1, State.loadA_a2, State.loadA_a3,
    State.loadA_a4, msgOfWord_msgWord, hg] at htold

theorem opTbdecoded_effect (hv : u.cfgValid = true) (ack : Bool) :
    (opTbdecoded C (BitVec.ofNat 8 (rxPid C slot h.msg.rti h.msg.gap)) 0 ack u).effect =
      (tbDecoded (rxPid C slot h.msg.rti h.msg.gap) 0 ack u.effect).state := by
  have hpid : rxPid C slot h.msg.rti h.msg.gap ≤ C.nProc := (Nat.mod_lt _ (Nat.succ_pos _)).le
  rw [opTbdecoded_of_inRange (tb := 0) hv (by rwa [rxPid_toNat]) (Nat.succ_pos _) rfl, tbDecoded_effect, rxPid_toNat]
  rfl

theorem opScan_loadA_effect (hv : s.cfgValid = true) :
    (opScan C (s.loadA slot 0 0 0 0)).effect = (scan C slot s).state.effect := by
  obtain ⟨-, hstate⟩ := scan_congr_effect C slot (State.loadA_effect s slot 0 0 0 0)
  rw [opScan_effect (s := s.loadA slot 0 0 0 0) hv, State.loadA_a0, hstate]

theorem hostReceive_effect_of_none (hv : s.cfgValid = true) (hnone : (scan C slot s).hit = none) :
    (hostReceive C slot s).effect = (scan C slot s).state.effect := by
  have hstatus : (opScan C (s.loadA slot 0 0 0 0)).status = Status.noSci.word :=
    opScan_status_of_none hv (by rw [State.loadA_a0, (scan_congr_effect C slot (State.loadA_effect ..)).1, hnone])
  rw [← opScan_loadA_effect hv, hostReceive]
  dsimp only
  rw [if_neg (by rw [hstatus]; decide)]

/-- The part of the sequence after a SCAN that found the message of `h` and ended in `s` (R259). -/
def hostHit (C : Config) (slot : Word) (h : Hit) (s : State) : State :=
  let pid := BitVec.ofNat 8 (rxPid C slot h.msg.rti h.msg.gap)
  let granted := opNewgrant C pid 0 .sidelink true (!h.msg.rti)
    (s.loadA h.tbs slot (gntWord h.msg.gap h.msg.rti) 0 0)
  if (granted.r[0]).getLsbD 0 then
    let combined := opCombine C ((BitVec.ofNat 32 h.idx).setWidth 8)
      (granted.loadA (msgWord h.msg) h.sid slot h.ce (granted.r[1]))
    opTbdecoded C pid 0 ((combined.r[0]).getLsbD 0) combined
  else granted

theorem hostReceive_of_hit (hv : s.cfgValid = true) (hhit : (scan C slot s).hit = some h) :
    hostReceive C slot s = hostHit C slot h (opScan C (s.loadA slot 0 0 0 0)) := by
  obtain ⟨hstatus, hmsg, hsid, hidx, hce, htbs⟩ := opScan_told (s := s.loadA slot 0 0 0 0) (h := h) hv
    (by rw [State.loadA_a0, (scan_congr_effect C slot (State.loadA_effect ..)).1, hhit])
  rw [hostReceive]
  dsimp only
  rw [if_pos hstatus, hmsg, hsid, hidx, hce, htbs, msgOfWord_msgWord]
  rfl

/-- The components get the operands that the functions of the receive stage get as arguments (R255, R259). -/
theorem hostHit_effect (hv : u.cfgValid = true) (hn : u.cfg.nSubch.toNat ≤ 20) (hidx : h.idx < u.cfg.nSubch.toNat)
    (hriv : (msgAlloc u.cfg h.msg).ok = true) :
    (hostHit C slot h u).effect = (receiveHit C slot h u.effect).state := by
  obtain ⟨hgstate, hgact, hghandle⟩ := opNewgrant_told (C := C) (slot := slot) (h := h) hv
  obtain ⟨hcfg, hvalid⟩ := operate_config C (i := .newgrant (BitVec.ofNat 8 (rxPid C slot h.msg.rti h.msg.gap)) 0
    .sidelink true (!h.msg.rti)) nofun (u.loadA h.tbs slot (gntWord h.msg.gap h.msg.rti) 0 0)
  rw [operate, State.loadA_cfg] at hcfg
  rw [operate, State.loadA_cfgValid, hv] at hvalid
  rw [hostHit]
  dsimp only
  generalize opNewgrant C _ 0 .sidelink true (!h.msg.rti) _ = granted at *
  rw [hgact, actWord_decodeEnabled]
  cases hg : (hitGrant C slot h u.effect).act.decodeEnabled with
  | false => rw [if_neg Bool.false_ne_true, hgstate, receiveHit_of_refused hg]
  | true =>
    have hgok : (hitGrant C slot h u.effect).status = .ok := (newGrant_accepted C (rxPid_lt ..) two_pos _ _ hg).1
    rw [if_pos rfl, hghandle hgok, receiveHit_of_accepted hg rfl]
    rw [← hcfg] at hn hidx hriv
    obtain ⟨hcstate, hcout⟩ := opCombine_hit_told (slot := slot) hvalid hn hidx hriv hgstate
    obtain ⟨-, hcvalid⟩ := operate_config C (i := .combine ((BitVec.ofNat 32 h.idx).setWidth 8)) nofun
      (granted.loadA (msgWord h.msg) h.sid slot h.ce (hitGrant C slot h u.effect).handle)
    rw [operate, State.loadA_cfgValid, hvalid] at hcvalid
    rw [hcout, outWord_success, opTbdecoded_effect hcvalid, hcstate]

/-- On a hit the sequence does what the receive stage does (R255, R259). -/
theorem hostReceive_effect_of_hit (hv : s.cfgValid = true) (hn : s.cfg.nSubch.toNat ≤ 20)
    (hhit : (scan C slot s).hit = some h) :
    (hostReceive C slot s).effect = (receiveHit C slot h (scan C slot s).state.effect).state := by
  obtain ⟨hidx, hriv⟩ := scan_hit_valid hhit
  have hscanned := opScan_loadA_effect (C := C) (slot := slot) hv
  obtain ⟨hcfg, hvalid⟩ := operate_config C (i := .scan) nofun (s.loadA slot 0 0 0 0)
  rw [operate, State.loadA_cfg] at hcfg
  rw [operate, State.loadA_cfgValid, hv] at hvalid
  rw [← hcfg] at hn hidx hriv
  rw [hostReceive_of_hit hv hhit, hostHit_effect hvalid hn hidx hriv, hscanned]

/-- The receive part of the sequence does what the receive stage does, which finds the ordinal in `R0` (R259). -/
theorem hostReceive_effect (hv : s.cfgValid = true) (hn : s.cfg.nSubch.toNat ≤ 20) (hu : u.effect = s.effect) :
    (hostReceive C slot s).effect = (receiveStage C slot u).effect := by
  obtain ⟨hhit, hstate⟩ := scan_congr_effect C slot hu
  cases h : (scan C slot s).hit with
  | none =>
    rw [hostReceive_effect_of_none hv h, receiveStage_effect_of_none (hhit.trans h), hstate]
  | some x =>
    rw [hostReceive_effect_of_hit hv hn h, receiveStage_effect_of_hit (hhit.trans h), hstate]

end

/-! ### The transmit part of the sequence (R259) -/

/-- Every message that goes out has a valid `riv` (R41, R232). -/
theorem buildGrant_msg_valid {C : Config} {slot bits : Word} {rti : Bool} {s : State} {m : SciMsg}
    (hn : s.cfg.nSubch.toNat ≤ 20) (hlast : TxLastBuilt s) (hsome : (buildGrant C slot bits rti s).msg = some m) :
    (msgAlloc s.cfg m).ok = true := by
  obtain ⟨-, ⟨-, last, hremembered, rfl⟩ | ⟨hbuilt, -⟩⟩ := buildGrant_of_msg_some hsome
  · obtain ⟨-, -, hok⟩ := hlast last hremembered
    exact hok
  · obtain ⟨hok, -⟩ := hbuilt.allocation hn
    exact hok

section
variable {C : Config} {tick slot bits : Word} {rti : Bool} {s u : State} {m : SciMsg}

theorem transmitStage_effect_of_none (hbits : s.a[1] = bits) (hnone : (buildGrant C slot bits rti s).msg = none) :
    (transmitStage C tick slot true rti s).effect = (buildGrant C slot bits rti s).state.effect := by
  rw [transmitStage_of_none hbits hnone, State.setR_effect]

theorem transmitStage_effect_of_some (hbits : s.a[1] = bits) (hsome : (buildGrant C slot bits rti s).msg = some m) :
    (transmitStage C tick slot true rti s).effect =
      (buildGrant C slot bits rti s).state.effect.note (sentEvent C s.cfg tick m) := by
  rw [transmitStage_of_some hbits hsome]
  simp only [State.setR_effect, State.effect_note]

/-- BUILDGRANT that builds nothing ends with another status than `OK` (R232). -/
theorem opBuildgrant_told_none (hv : s.cfgValid = true)
    (hnone : (buildGrant C (s.a[0]) (s.a[1]) rti s).msg = none) :
    (opBuildgrant C rti s).status ≠ Status.ok.word ∧
    (opBuildgrant C rti s).effect = (buildGrant C (s.a[0]) (s.a[1]) rti s).state.effect := by
  obtain ⟨hstatus, -⟩ := buildGrant_of_msg_none hnone
  rcases hbuild : buildGrant C (s.a[0]) (s.a[1]) rti s with ⟨st, msg, t⟩
  rw [hbuild] at hnone hstatus
  subst hnone
  rw [opBuildgrant_of_none hv hbuild]
  exact ⟨(Status.word_eq_ok_iff _).not.mpr hstatus, rfl⟩

/-- BUILDGRANT that builds a message ends with `OK` and tells the message (R232). -/
theorem opBuildgrant_told_some (hv : s.cfgValid = true)
    (hsome : (buildGrant C (s.a[0]) (s.a[1]) rti s).msg = some m) :
    (opBuildgrant C rti s).status = Status.ok.word ∧ (opBuildgrant C rti s).r[0] = msgWord m ∧
    (opBuildgrant C rti s).effect = (buildGrant C (s.a[0]) (s.a[1]) rti s).state.effect := by
  obtain ⟨hstatus, -⟩ := buildGrant_of_msg_some hsome
  rcases hbuild : buildGrant C (s.a[0]) (s.a[1]) rti s with ⟨st, msg, t⟩
  rw [hbuild] at hsome hstatus
  subst hsome hstatus
  rw [opBuildgrant_of_some hv hbuild]
  exact ⟨rfl, (t.grantResults_granted C m).msg_eq, rfl⟩

/-- SCIENC of a message with a valid `riv` tells its codeword and has no effect (R133). -/
theorem opScienc_told (hv : s.cfgValid = true) (ha : s.a[0] = msgWord m) (hriv : (msgAlloc s.cfg m).ok = true) :
    (opScienc s).r[0] = sciPack s.cfg.nSubch.toNat m ∧
    (opScienc s).r[1] = crcWord (crcOfInfo (sciPack s.cfg.nSubch.toNat m)) ∧ (opScienc s).effect = s.effect := by
  have hm : s.opA 0 = msgWord m := ha
  rw [opScienc, State.whenConfigured_of_valid hv]
  dsimp only
  rw [hm, msgReservedZero_msgWord, msgOfWord_msgWord, hriv, Bool.and_self, if_pos rfl]
  exact ⟨by simp [sciEncode], by simp [sciEncode], rfl⟩

theorem hostTransmit_effect_of_none (hv : s.cfgValid = true) (hnone : (buildGrant C slot bits rti s).msg = none) :
    (hostTransmit C tick slot bits rti s).effect = (buildGrant C slot bits rti s).state.effect := by
  obtain ⟨-, hmsg, hstate⟩ := buildGrant_congr_effect C slot (State.loadA_effect s slot bits 0 0 0) bits rti
  obtain ⟨hstatus, heffect⟩ := opBuildgrant_told_none (C := C) (rti := rti) (s := s.loadA slot bits 0 0 0) hv
    (by rw [State.loadA_a0, State.loadA_a1, hmsg, hnone])
  rw [hostTransmit]
  dsimp only
  rw [if_neg hstatus, heffect, State.loadA_a0, State.loadA_a1, hstate]

/-- SCIENC tells the codeword of the built message, which stands in the transmit event (R258). -/
theorem hostTransmit_effect_of_some (hv : s.cfgValid = true) (hriv : (msgAlloc s.cfg m).ok = true)
    (hsome : (buildGrant C slot bits rti s).msg = some m) :
    (hostTransmit C tick slot bits rti s).effect =
      (buildGrant C slot bits rti s).state.effect.note (sentEvent C s.cfg tick m) := by
  obtain ⟨-, hmsg, hstate⟩ := buildGrant_congr_effect C slot (State.loadA_effect s slot bits 0 0 0) bits rti
  obtain ⟨hstatus, htold, heffect⟩ :=
    opBuildgrant_told_some (C := C) (rti := rti) (s := s.loadA slot bits 0 0 0) (m := m) hv
      (by rw [State.loadA_a0, State.loadA_a1, hmsg, hsome])
  obtain ⟨hcfg, hvalid⟩ := operate_config C (i := .buildgrant rti) nofun (s.loadA slot bits 0 0 0)
  rw [operate, State.loadA_cfg] at hcfg
  rw [operate, State.loadA_cfgValid, hv] at hvalid
  rw [State.loadA_a0, State.loadA_a1, hstate] at heffect
  rw [hostTransmit]
  dsimp only
  rw [if_pos hstatus, htold, msgOfWord_msgWord]
  generalize opBuildgrant C rti _ = built at heffect hcfg hvalid ⊢
  rw [← hcfg] at hriv ⊢
  obtain ⟨hinfo, hcrc, hcode⟩ :=
    opScienc_told (s := built.loadA (msgWord m) 0 0 0 0) hvalid (State.loadA_a0 ..) hriv
  have hkept : (opScienc (built.loadA (msgWord m) 0 0 0 0)).cfg = built.cfg := (congrArg State.cfg hcode :)
  rw [hinfo, hcrc, parityOf_crcWord, hkept, ← State.effect_note, hcode, State.loadA_effect, heffect]
  rfl

theorem hostTransmit_effect (hv : s.cfgValid = true) (hn : s.cfg.nSubch.toNat ≤ 20) (hlast : TxLastBuilt s)
    (hu : u.effect = s.effect) (hbits : u.a[1] = bits) :
    (hostTransmit C tick slot bits rti s).effect = (transmitStage C tick slot true rti u).effect := by
  obtain ⟨-, hmsg, hstate⟩ := buildGrant_congr_effect C slot hu bits rti
  have hcfg : u.cfg = s.cfg := (congrArg State.cfg hu :)
  cases h : (buildGrant C slot bits rti s).msg with
  | none => rw [hostTransmit_effect_of_none hv h, transmitStage_effect_of_none hbits (hmsg.trans h), hstate]
  | some m =>
    rw [hostTransmit_effect_of_some hv (buildGrant_msg_valid hn hlast h) h,
      transmitStage_effect_of_some hbits (hmsg.trans h), hstate, hcfg]

end

/-- Settles O50: stage by stage, each part of the sequence does what its stage does but for the registers. -/
theorem workIsComponentSequence : Obligations.WorkIsComponentSequence := by
  intro C s txReq txRti k hlegal hlast hv hlater hslot
  have hnew : NewTick s (some k) := ⟨hv, hlater, hslot⟩
  have hn := nSubch_le_of_configLegal hlegal hv
  have hreceive : (hostReceive C (BitVec.ofNat 32 k) { s with lastTick := some (s.a[0]) }).effect =
      (s.received C k).effect := hostReceive_effect hv hn rfl
  rw [hnew.opWork_inPool]
  generalize hostReceive C (BitVec.ofNat 32 k) { s with lastTick := some (s.a[0]) } = u at hreceive ⊢
  cases txReq with
  | false => exact hreceive.symm
  | true =>
    have hframe := hreceive.trans (congrArg State.effect (received_frame C s k))
    have hcfg : u.cfg = s.cfg := (congrArg State.cfg hframe :)
    have hvalid : u.cfgValid = s.cfgValid := (congrArg State.cfgValid hframe :)
    have hmsg : u.txLast = s.txLast := (congrArg State.txLast hframe :)
    refine (hostTransmit_effect (hvalid.trans hv) (by rwa [hcfg]) ?_ hreceive.symm ?_).symm
    · rwa [TxLastBuilt, hmsg, hvalid, hcfg]
    · rw [received_frame]

end Sys2Proof.Machine

namespace Sys2Proof.Machine

/-! ### The step is total, and idle with nothing pending (R270, R285) -/

/-- With no access pending the step changes nothing (R285). -/
theorem step_idle {s : State} (h : s.inbox = []) : step s = .next s := by
  rw [step, h]

/-- Settles O9. -/
theorem idleBlockKeepsState : Obligations.IdleBlockKeepsState := fun _ => step_idle

/-- Settles O10: an idle step keeps the state, and a pending access is performed whatever it is. -/
theorem everyStepContinues : Obligations.EveryStepContinues := by
  intro s
  cases h : s.inbox with
  | nil => exact ⟨s, step_idle h⟩
  | cons x rest => exact ⟨_, step_eq_access h⟩

/-- Settles O12: the closed gate of every operation but the two. -/
theorem unconfiguredOnlySetsStatus : Obligations.UnconfiguredOnlySetsStatus :=
  fun _ _ => exec_of_unconfigured

/-! ### The all-zero codeword (R132, R316) -/

theorem bitsOf_zero (n : Nat) : bitsOf n 0 = List.replicate n false := by
  simp [bitsOf, List.map_const']

theorem valOf_replicate_false (n : Nat) : valOf (List.replicate n false) = 0 := by
  induction n with
  | zero => rfl
  | succ n ih => rw [List.replicate_succ, valOf_cons, ih, Bool.toNat_false, Nat.zero_mul]

/-- Every field of a sequence of zeros is 0, even where it reaches past the end. -/
theorem fieldAt_replicate_false (n start len : Nat) : fieldAt (List.replicate n false) start len = 0 := by
  rw [fieldAt, List.drop_replicate, List.take_replicate, valOf_replicate_false]

/-- The checksum register starts from 0 and stays there on zeros (R92). -/
theorem crc16_replicate_false (n : Nat) : crc16 (List.replicate n false) = 0#16 := by
  induction n with
  | zero => rfl
  | succ n ih => exact ih

theorem bitsOf_zeroWord : bitsOf 32 (0 : Word).toNat = List.replicate 32 false := bitsOf_zero 32

theorem crcOfInfo_zero : crcOfInfo 0 = 0#16 := by
  rw [crcOfInfo, bitsOf_zeroWord, crc16_replicate_false]

theorem sciUnpack_zero_riv (n : Nat) : (sciUnpack n 0).riv = 0 := by
  have hriv : fieldAt (bitsOf 32 (0 : Word).toNat) 7 (rivBits n) = 0 := by
    rw [bitsOf_zeroWord, fieldAt_replicate_false]
  exact congrArg (BitVec.ofNat 8) hriv

/-- Value 0 stands for one subchannel at index 0 (R116, R117). -/
theorem rivDecode_zero {n : Nat} (h : 1 ≤ n) : rivDecode n 0 = { len := 1, start := 0, ok := true } := by
  have henc : rivEncode n 1 0 = 0 := by simp [rivEncode]
  rw [← henc]
  exact rivDecode_rivEncode le_rfl h

/-- Settles O21: the zero word has the zero checksum, and its `riv` is the value 0. -/
theorem allZeroCodewordAccepted : Obligations.AllZeroCodewordAccepted := by
  intro C c hn _
  have halloc : msgAlloc c (sciUnpack c.nSubch.toNat 0) = { len := 1, start := 0, ok := true } := by
    rw [msgAlloc, sciUnpack_zero_riv]
    exact rivDecode_zero hn
  have hok : (msgAlloc c (sciUnpack c.nSubch.toNat 0)).ok = true := congrArg Alloc.ok halloc
  refine ⟨_, sciDecode_of_ok C rfl hok 0, ?_, rfl, congrArg Alloc.len halloc, congrArg Alloc.start halloc⟩
  rw [crcOfInfo_zero]
  rfl

end Sys2Proof.Machine
